-- ==== Sys2Proof/Word.lean ====
section
/-! DEFINITION. The word types of the Z7 (00 R5: bit 0 is the least significant bit; values are little-endian). -/
namespace Sys2Proof

/-- A byte of memory. -/
abbrev Byte := BitVec 8
/-- A swarm register value, a physical or a virtual address as a register holds it. -/
abbrev Word := BitVec 64
/-- A 32-bit lane, MX scalar or instruction word. -/
abbrev Word32 := BitVec 32
/-- A register number w0 to w31, v0 to v31 or s0 to s31. -/
abbrev Reg := BitVec 5

end Sys2Proof
end

