-- ==== Sys2Proof/Machine/Bits.lean ====
section
/-! DEFINITION. Bit fields, sign extension and byte order (00 R5). -/
namespace Sys2Proof.Machine

/-- Bits hi..lo of a number. -/
def bits (x : Nat) (hi lo : Nat) : Nat := (x >>> lo) % 2 ^ (hi + 1 - lo)

/-- Bits hi..lo of a word, as a number. -/
def field {w : Nat} (x : BitVec w) (hi lo : Nat) : Nat := bits x.toNat hi lo

/-- A number with bits hi..lo replaced. -/
def setBits (x : Nat) (hi lo : Nat) (v : Nat) : Nat :=
  x - bits x hi lo * 2 ^ lo + v % 2 ^ (hi + 1 - lo) * 2 ^ lo

/-- A word with bits hi..lo replaced. -/
def setField {w : Nat} (x : BitVec w) (hi lo : Nat) (v : Nat) : BitVec w := BitVec.ofNat w (setBits x.toNat hi lo v)

/-- The number that bytes hold, lowest address first (00 R5). -/
def leNat : List Byte → Nat
  | [] => 0
  | b :: l => b.toNat + 256 * leNat l

/-- The n bytes of a number, lowest first. -/
def leBytes : Nat → Nat → List Byte
  | 0, _ => []
  | n + 1, x => BitVec.ofNat 8 x :: leBytes n (x / 256)

/-- The low `b` bits of a number read as two's complement and widened to 64 bits. -/
def sextN (b x : Nat) : Word := (BitVec.ofNat b x).signExtend 64

/-- A 64-bit word from a number. -/
def word (x : Nat) : Word := BitVec.ofNat 64 x

/-- Division rounded up. -/
def ceilDiv (x y : Nat) : Nat := (x + y - 1) / y

/-- Rotate a 64-bit word right. -/
def rotR (x : Word) (n : Nat) : Word := x.rotateRight n

/-- Rotate a 64-bit word left (05 R103). -/
def rotL (x : Word) (n : Nat) : Word := x.rotateLeft n

end Sys2Proof.Machine
end

