-- ==== Sys2Proof/Config.lean ====
section
/-! DEFINITION. What an implementation fixes and the free values: the sizes of 00 R2 and 01 R8 to R36 as numbers, the address map
of 01 R36, and the constants without a body that stand for what the spec leaves open. -/
namespace Sys2Proof.Config

/-- Clusters of the package (00 R2, R3). -/
def clusters : Nat := 256
/-- Swarm cores (00 R2). -/
def cores : Nat := 1024
/-- First local address past HBM (01 R36). -/
def hbmEnd : Nat := 0xB2D05E0000
/-- Scratchpad window of cluster 0 and the size of a window (01 R36). -/
def padBase : Nat := 0x20000000000
/-- Bytes of a scratchpad. -/
def padSize : Nat := 0x800000
/-- Core store of core 0 and the size of a core store (01 R36). -/
def storeBase : Nat := 0x20800000000
/-- Bytes of a core store. -/
def storeSize : Nat := 0x40000
/-- Bytes of a core store that form the workspace pool (01 R12). -/
def poolBytes : Nat := 0x20000
/-- MMIO and control (01 R36). -/
def mmioBase : Nat := 0x28000000000
/-- Host memory (01 R36). -/
def hostBase : Nat := 0x30000000000
/-- One past the last local address (01 R36). -/
def localEnd : Nat := 0x40000000000
/-- The crew aperture (05 R117). -/
def aperture : Nat := 0xFF000000000000
/-- Bytes of one cluster image and the spacing of images in an image area (13 R320). -/
def imageBytes : Nat := 0xC3D000
/-- The multiple at which cluster images stand (13 R320). -/
def imageStride : Nat := 0xC40000

/-- Lines of a core's L1D: 64 KiB (00 R2). -/
def l1dLines : Nat := 1024
/-- Lines of a core's I-cache: 32 KiB (00 R2). -/
def icacheLines : Nat := 512
/-- Line buffers of a die's fetch agent (14 R331). -/
def fetchLines : Nat := 64
/-- Lines of the host-line cache: 4 MiB (14 R338). -/
def hostCacheLines : Nat := 65536

/-- The home slice, one of 128, of a 64-byte line: a fixed function of the physical address that the spec does not give (11 R258). -/
opaque homeSlice : Nat → Fin 128
/-- The place of the line that leaves a full cache: the spec leaves the replacement open (11 R261). The argument is the place in the
run (State.freeUse). -/
opaque victim : Nat → Nat
/-- Whether element `e` of an overlapping copy reads the byte as it was before the copy (07 R173): the spec allows both. The first
argument is the copy's place in the run (State.freeUse), the second the element. -/
opaque overlapOld : Nat → Nat → Bool
/-- Whether the part is the ALS-JZ7M, order code 1, or the ALS-JZ7, order code 0 (00 R1; 15 R356): made in manufacture. -/
opaque orderM : Bool
/-- The serial number of the part, the identity key, the certificate chain, the digest of the ROM and of the firmware that the part was
made with, and the signature (15 R356, R357): fused or computed with keys that the spec does not give. The arguments are the command, the
place, and the bytes signed or named. -/
opaque identityBytes : Nat → Nat → List (BitVec 8) → BitVec 8

/-- The link word of the slot that ends a lane or the list of free slots: it names no slot, and the spec gives no value (01 R27). -/
opaque endLink : Nat → BitVec 16
/-- Byte of a part of a cluster image that holds something for which 13 R320 gives a place and no layout: the part, what it holds, and the byte's
offset in it. -/
opaque imageByte : Nat → List Nat → Nat → BitVec 8
/-- Bytes that such a part takes, where 13 R320 says that the remaining ones are zero. -/
opaque imageTakes : Nat → List Nat → Nat
/-- Where the pending queue of the second shelf begins among those of both (13 R320), in entries; the first shelf's are before it. -/
opaque queueSplit : Nat → Nat
/-- CAUSE of a dropped write for which 14 R342 names none: an RDMA write to an unmapped page (R335), a doorbell of a queue pair while the
Ethernet service is off (15 R350). -/
opaque dropCause : Nat → BitVec 4
/-- SOURCE of a dropped write of the service core, one of the five: 14 R342 has no code for it, and 5 never names a drop. -/
opaque serviceSource : Fin 5
/-- Offset of a queue pair's doorbell on the MMIO page: 14 R335 places it there, and no register map gives its address. -/
opaque pairDoorbell : Nat → BitVec 30
/-- Bytes of a piece of the certificate chain, at most 3,840 (15 R356): the chain's length is not given. -/
opaque certLength : Nat → Nat

end Sys2Proof.Config
end

