-- ==== Sys2Proof/Machine/Maps.lean ====
section
/-! DEFINITION. Sparse maps: lists of (key, value) with rising keys, the form in which State holds numbered things of which most
stand at their default. -/
namespace Sys2Proof.Machine

/-- A list of (key, value), keys strictly rising. -/
abbrev SMap (α : Type) := List (Nat × α)

/-- The value at a key, if one is listed. -/
def SMap.find? {α : Type} : SMap α → Nat → Option α
  | [], _ => none
  | (j, v) :: m, k => if j < k then SMap.find? m k else if j = k then some v else none

/-- The value at a key, or the default of an unlisted key. -/
def SMap.getD {α : Type} (m : SMap α) (k : Nat) (dflt : α) : α := (m.find? k).getD dflt

/-- The map with a value put at a key. -/
def SMap.insert {α : Type} : SMap α → Nat → α → SMap α
  | [], k, v => [(k, v)]
  | (j, w) :: m, k, v => if j < k then (j, w) :: SMap.insert m k v else if j = k then (k, v) :: m else (k, v) :: (j, w) :: m

/-- The map with a key unlisted. -/
def SMap.erase {α : Type} : SMap α → Nat → SMap α
  | [], _ => []
  | (j, w) :: m, k => if j < k then (j, w) :: SMap.erase m k else if j = k then m else (j, w) :: m

/-- The map with a value put at a key, unlisted when it is the default. -/
def SMap.put {α : Type} [DecidableEq α] (m : SMap α) (k : Nat) (v dflt : α) : SMap α :=
  if v = dflt then m.erase k else m.insert k v

/-- The keys rise strictly. -/
def SMap.wf {α : Type} : SMap α → Bool
  | [] => true
  | (j, _) :: m => m.all (fun e => j < e.1) && SMap.wf m

/-- A list with one element replaced; an index past the end changes nothing. -/
def setAt {α : Type} : List α → Nat → α → List α
  | [], _, _ => []
  | _ :: l, 0, v => v :: l
  | x :: l, n + 1, v => x :: setAt l n v

/-- A list without its n-th element. -/
def dropAt {α : Type} : List α → Nat → List α
  | [], _ => []
  | _ :: l, 0 => l
  | x :: l, n + 1 => x :: dropAt l n

/-- The first place at which a test holds. -/
def indexOf? {α : Type} (p : α → Bool) : List α → Option Nat
  | [] => none
  | x :: l => if p x then some 0 else (indexOf? p l).map (· + 1)

end Sys2Proof.Machine
end

