-- ==== Sys2Proof/Syntax.lean ====
section
/-! DEFINITION. The instructions of the Z7 as syntax: one constructor per row of spec/opcode_table.json. -/
namespace Sys2Proof

/-- Scopes (04 R88). -/
inductive Scope where
  | ctx
  | core
  | crew
  | die
  | pkg
  | domain
  | sys
  deriving DecidableEq, Repr

/-- Its code in the word. -/
def Scope.code : Scope → BitVec 3
  | .ctx => 0
  | .core => 1
  | .crew => 2
  | .die => 3
  | .pkg => 4
  | .domain => 5
  | .sys => 6

/-- The code read back; a code the spec does not define gives nothing. -/
def Scope.ofCode (c : BitVec 3) : Option Scope :=
  match c.toNat with
  | 0 => some .ctx
  | 1 => some .core
  | 2 => some .crew
  | 3 => some .die
  | 4 => some .pkg
  | 5 => some .domain
  | 6 => some .sys
  | _ => none

/-- Order codes (04 R88). -/
inductive Order where
  | none
  | acq
  | rel
  | acqrel
  deriving DecidableEq, Repr

/-- Its code in the word. -/
def Order.code : Order → BitVec 2
  | .none => 0
  | .acq => 1
  | .rel => 2
  | .acqrel => 3

/-- The code read back; a code the spec does not define gives nothing. -/
def Order.ofCode (c : BitVec 2) : Option Order :=
  match c.toNat with
  | 0 => some .none
  | 1 => some .acq
  | 2 => some .rel
  | 3 => some .acqrel
  | _ => none

/-- Operand size of AMO, AMOCAS and GST: doubleword or word (04 R92, 08 R192). -/
inductive AmoSize where
  | d
  | w
  deriving DecidableEq, Repr

/-- Its code in the word. -/
def AmoSize.code : AmoSize → BitVec 1
  | .d => 0
  | .w => 1

/-- The code read back; a code the spec does not define gives nothing. -/
def AmoSize.ofCode (c : BitVec 1) : Option AmoSize :=
  match c.toNat with
  | 0 => some .d
  | 1 => some .w
  | _ => none

/-- Precision bit P (06 R140). -/
inductive Prec where
  | d
  | s
  deriving DecidableEq, Repr

/-- Its code in the word. -/
def Prec.code : Prec → BitVec 1
  | .d => 0
  | .s => 1

/-- The code read back; a code the spec does not define gives nothing. -/
def Prec.ofCode (c : BitVec 1) : Option Prec :=
  match c.toNat with
  | 0 => some .d
  | 1 => some .s
  | _ => none

/-- Rounding field (06 R140). -/
inductive Rm where
  | dyn
  | rne
  | rtz
  | rup
  | rdn
  deriving DecidableEq, Repr

/-- Its code in the word. -/
def Rm.code : Rm → BitVec 3
  | .dyn => 0
  | .rne => 1
  | .rtz => 2
  | .rup => 3
  | .rdn => 4

/-- The code read back; a code the spec does not define gives nothing. -/
def Rm.ofCode (c : BitVec 3) : Option Rm :=
  match c.toNat with
  | 0 => some .dyn
  | 1 => some .rne
  | 2 => some .rtz
  | 3 => some .rup
  | 4 => some .rdn
  | _ => none

/-- Comparison predicates (06 R144, 09 R219). -/
inductive CmpOp where
  | eq
  | lt
  | le
  | un
  deriving DecidableEq, Repr

/-- Its code in the word. -/
def CmpOp.code : CmpOp → BitVec 3
  | .eq => 0
  | .lt => 1
  | .le => 2
  | .un => 3

/-- The code read back; a code the spec does not define gives nothing. -/
def CmpOp.ofCode (c : BitVec 3) : Option CmpOp :=
  match c.toNat with
  | 0 => some .eq
  | 1 => some .lt
  | 2 => some .le
  | 3 => some .un
  | _ => none

/-- Sign operations (06 R145). -/
inductive SgnOp where
  | j
  | n
  | x
  deriving DecidableEq, Repr

/-- Its code in the word. -/
def SgnOp.code : SgnOp → BitVec 3
  | .j => 0
  | .n => 1
  | .x => 2

/-- The code read back; a code the spec does not define gives nothing. -/
def SgnOp.ofCode (c : BitVec 3) : Option SgnOp :=
  match c.toNat with
  | 0 => some .j
  | 1 => some .n
  | 2 => some .x
  | _ => none

/-- FCVT conversions, destination then source (06 R146). -/
inductive CvtOp where
  | d_s
  | s_d
  | s_bf
  | bf_s
  | s_h
  | h_s
  | s_e4
  | e4_s
  | s_e5
  | e5_s
  | s_f4
  | f4_s
  | l_d
  | lu_d
  | l_s
  | lu_s
  | w_s
  | wu_s
  | d_l
  | d_lu
  | s_l
  | s_lu
  | s_w
  deriving DecidableEq, Repr

/-- Its code in the word. -/
def CvtOp.code : CvtOp → BitVec 5
  | .d_s => 0
  | .s_d => 1
  | .s_bf => 2
  | .bf_s => 3
  | .s_h => 4
  | .h_s => 5
  | .s_e4 => 6
  | .e4_s => 7
  | .s_e5 => 8
  | .e5_s => 9
  | .s_f4 => 10
  | .f4_s => 11
  | .l_d => 12
  | .lu_d => 13
  | .l_s => 14
  | .lu_s => 15
  | .w_s => 16
  | .wu_s => 17
  | .d_l => 18
  | .d_lu => 19
  | .s_l => 20
  | .s_lu => 21
  | .s_w => 22

/-- The code read back; a code the spec does not define gives nothing. -/
def CvtOp.ofCode (c : BitVec 5) : Option CvtOp :=
  match c.toNat with
  | 0 => some .d_s
  | 1 => some .s_d
  | 2 => some .s_bf
  | 3 => some .bf_s
  | 4 => some .s_h
  | 5 => some .h_s
  | 6 => some .s_e4
  | 7 => some .e4_s
  | 8 => some .s_e5
  | 9 => some .e5_s
  | 10 => some .s_f4
  | 11 => some .f4_s
  | 12 => some .l_d
  | 13 => some .lu_d
  | 14 => some .l_s
  | 15 => some .lu_s
  | 16 => some .w_s
  | 17 => some .wu_s
  | 18 => some .d_l
  | 19 => some .d_lu
  | 20 => some .s_l
  | 21 => some .s_lu
  | 22 => some .s_w
  | _ => none

/-- Packed lane kinds (06 R150). -/
inductive LaneKind where
  | b
  | h
  | w
  | bf
  | s
  deriving DecidableEq, Repr

/-- Its code in the word. -/
def LaneKind.code : LaneKind → BitVec 3
  | .b => 0
  | .h => 1
  | .w => 2
  | .bf => 3
  | .s => 4

/-- The code read back; a code the spec does not define gives nothing. -/
def LaneKind.ofCode (c : BitVec 3) : Option LaneKind :=
  match c.toNat with
  | 0 => some .b
  | 1 => some .h
  | 2 => some .w
  | 3 => some .bf
  | 4 => some .s
  | _ => none

/-- PCVT conversions (06 R153). -/
inductive PcvtOp where
  | bf_s
  | s_bfl
  | s_bfh
  | e4_bf
  | e5_bf
  | b_h
  | bu_h
  | h_bl
  | h_bh
  deriving DecidableEq, Repr

/-- Its code in the word. -/
def PcvtOp.code : PcvtOp → BitVec 5
  | .bf_s => 0
  | .s_bfl => 1
  | .s_bfh => 2
  | .e4_bf => 3
  | .e5_bf => 4
  | .b_h => 5
  | .bu_h => 6
  | .h_bl => 7
  | .h_bh => 8

/-- The code read back; a code the spec does not define gives nothing. -/
def PcvtOp.ofCode (c : BitVec 5) : Option PcvtOp :=
  match c.toNat with
  | 0 => some .bf_s
  | 1 => some .s_bfl
  | 2 => some .s_bfh
  | 3 => some .e4_bf
  | 4 => some .e5_bf
  | 5 => some .b_h
  | 6 => some .bu_h
  | 7 => some .h_bl
  | 8 => some .h_bh
  | _ => none

/-- PCMP predicates; the fourth is unsigned less-than on integer lanes and unordered on float lanes (06 R155). -/
inductive PcmpOp where
  | eq
  | lt
  | le
  | ltuUn
  deriving DecidableEq, Repr

/-- Its code in the word. -/
def PcmpOp.code : PcmpOp → BitVec 2
  | .eq => 0
  | .lt => 1
  | .le => 2
  | .ltuUn => 3

/-- The code read back; a code the spec does not define gives nothing. -/
def PcmpOp.ofCode (c : BitVec 2) : Option PcmpOp :=
  match c.toNat with
  | 0 => some .eq
  | 1 => some .lt
  | 2 => some .le
  | 3 => some .ltuUn
  | _ => none

/-- LACA operand formats (06 R156). -/
inductive LacKind where
  | s
  | bf
  | h
  deriving DecidableEq, Repr

/-- Its code in the word. -/
def LacKind.code : LacKind → BitVec 5
  | .s => 0
  | .bf => 1
  | .h => 2

/-- The code read back; a code the spec does not define gives nothing. -/
def LacKind.ofCode (c : BitVec 5) : Option LacKind :=
  match c.toNat with
  | 0 => some .s
  | 1 => some .bf
  | 2 => some .h
  | _ => none

/-- Queue entry sizes (07 R159). -/
inductive EntrySize where
  | e8
  | e16
  | e32
  | e64
  deriving DecidableEq, Repr

/-- Its code in the word. -/
def EntrySize.code : EntrySize → BitVec 2
  | .e8 => 0
  | .e16 => 1
  | .e32 => 2
  | .e64 => 3

/-- The code read back; a code the spec does not define gives nothing. -/
def EntrySize.ofCode (c : BitVec 2) : Option EntrySize :=
  match c.toNat with
  | 0 => some .e8
  | 1 => some .e16
  | 2 => some .e32
  | 3 => some .e64
  | _ => none

/-- Glean ops (08 R197). -/
inductive GleanOp where
  | addS
  | addD
  | addW
  | addL
  | minS
  | minW
  | maxS
  | maxW
  | and
  | or
  | xor
  deriving DecidableEq, Repr

/-- Its code in the word. -/
def GleanOp.code : GleanOp → BitVec 5
  | .addS => 0
  | .addD => 1
  | .addW => 2
  | .addL => 3
  | .minS => 4
  | .minW => 5
  | .maxS => 6
  | .maxW => 7
  | .and => 8
  | .or => 9
  | .xor => 10

/-- The code read back; a code the spec does not define gives nothing. -/
def GleanOp.ofCode (c : BitVec 5) : Option GleanOp :=
  match c.toNat with
  | 0 => some .addS
  | 1 => some .addD
  | 2 => some .addW
  | 3 => some .addL
  | 4 => some .minS
  | 5 => some .minW
  | 6 => some .maxS
  | 7 => some .maxW
  | 8 => some .and
  | 9 => some .or
  | 10 => some .xor
  | _ => none

/-- System registers (08 R208). -/
inductive SysReg where
  | fcsr
  | events
  | wp
  | ctxid
  | core
  | cluster
  | crew
  | rank
  | spansize
  | region
  | feat
  | cycle
  | stepping
  | trappc
  | trapinfo
  | trapaddr
  | tvbase
  | asid
  | dtb
  | gtb
  deriving DecidableEq, Repr

/-- Its code in the word. -/
def SysReg.code : SysReg → BitVec 16
  | .fcsr => 0
  | .events => 1
  | .wp => 2
  | .ctxid => 16
  | .core => 17
  | .cluster => 18
  | .crew => 19
  | .rank => 20
  | .spansize => 21
  | .region => 22
  | .feat => 23
  | .cycle => 24
  | .stepping => 25
  | .trappc => 32
  | .trapinfo => 33
  | .trapaddr => 34
  | .tvbase => 35
  | .asid => 36
  | .dtb => 37
  | .gtb => 38

/-- The code read back; a code the spec does not define gives nothing. -/
def SysReg.ofCode (c : BitVec 16) : Option SysReg :=
  match c.toNat with
  | 0 => some .fcsr
  | 1 => some .events
  | 2 => some .wp
  | 16 => some .ctxid
  | 17 => some .core
  | 18 => some .cluster
  | 19 => some .crew
  | 20 => some .rank
  | 21 => some .spansize
  | 22 => some .region
  | 23 => some .feat
  | 24 => some .cycle
  | 25 => some .stepping
  | 32 => some .trappc
  | 33 => some .trapinfo
  | 34 => some .trapaddr
  | 35 => some .tvbase
  | 36 => some .asid
  | 37 => some .dtb
  | 38 => some .gtb
  | _ => none

/-- Prefetch hints (06 R135). -/
inductive PflHint where
  | l1
  | l2
  | tlb
  deriving DecidableEq, Repr

/-- Its code in the word. -/
def PflHint.code : PflHint → BitVec 5
  | .l1 => 0
  | .l2 => 1
  | .tlb => 2

/-- The code read back; a code the spec does not define gives nothing. -/
def PflHint.ofCode (c : BitVec 5) : Option PflHint :=
  match c.toNat with
  | 0 => some .l1
  | 1 => some .l2
  | 2 => some .tlb
  | _ => none

/-- MX lane kinds .s and .w (10 R244). -/
inductive VKind where
  | s
  | w
  deriving DecidableEq, Repr

/-- Its code in the word. -/
def VKind.code : VKind → BitVec 5
  | .s => 0
  | .w => 1

/-- The code read back; a code the spec does not define gives nothing. -/
def VKind.ofCode (c : BitVec 5) : Option VKind :=
  match c.toNat with
  | 0 => some .s
  | 1 => some .w
  | _ => none

/-- VCVT conversions (10 R247). -/
inductive VcvtOp where
  | s_w
  | w_s
  | wz_s
  | bf_s
  | s_bf
  | h_s
  | s_h
  | e4_s
  | s_e4
  | e5_s
  | s_e5
  | f4_s
  | s_f4
  | b_w
  deriving DecidableEq, Repr

/-- Its code in the word. -/
def VcvtOp.code : VcvtOp → BitVec 5
  | .s_w => 0
  | .w_s => 1
  | .wz_s => 2
  | .bf_s => 3
  | .s_bf => 4
  | .h_s => 5
  | .s_h => 6
  | .e4_s => 7
  | .s_e4 => 8
  | .e5_s => 9
  | .s_e5 => 10
  | .f4_s => 11
  | .s_f4 => 12
  | .b_w => 13

/-- The code read back; a code the spec does not define gives nothing. -/
def VcvtOp.ofCode (c : BitVec 5) : Option VcvtOp :=
  match c.toNat with
  | 0 => some .s_w
  | 1 => some .w_s
  | 2 => some .wz_s
  | 3 => some .bf_s
  | 4 => some .s_bf
  | 5 => some .h_s
  | 6 => some .s_h
  | 7 => some .e4_s
  | 8 => some .s_e4
  | 9 => some .e5_s
  | 10 => some .s_e5
  | 11 => some .f4_s
  | 12 => some .s_f4
  | 13 => some .b_w
  | _ => none

/-- VREDM reductions (10 R248). -/
inductive RedmOp where
  | maxS
  | minS
  | maxW
  | minW
  deriving DecidableEq, Repr

/-- Its code in the word. -/
def RedmOp.code : RedmOp → BitVec 5
  | .maxS => 0
  | .minS => 1
  | .maxW => 2
  | .minW => 3

/-- The code read back; a code the spec does not define gives nothing. -/
def RedmOp.ofCode (c : BitVec 5) : Option RedmOp :=
  match c.toNat with
  | 0 => some .maxS
  | 1 => some .minS
  | 2 => some .maxW
  | 3 => some .minW
  | _ => none

/-- VLD element modes (10 R249). -/
inductive VldMode where
  | x32
  | bf
  | h
  | b
  | bu
  | e4
  | e5
  deriving DecidableEq, Repr

/-- Its code in the word. -/
def VldMode.code : VldMode → BitVec 18
  | .x32 => 0
  | .bf => 1
  | .h => 2
  | .b => 3
  | .bu => 4
  | .e4 => 5
  | .e5 => 6

/-- The code read back; a code the spec does not define gives nothing. -/
def VldMode.ofCode (c : BitVec 18) : Option VldMode :=
  match c.toNat with
  | 0 => some .x32
  | 1 => some .bf
  | 2 => some .h
  | 3 => some .b
  | 4 => some .bu
  | 5 => some .e4
  | 6 => some .e5
  | _ => none

/-- VST element modes (10 R249). -/
inductive VstMode where
  | x32
  | bf
  | h
  | b
  | bu
  deriving DecidableEq, Repr

/-- Its code in the word. -/
def VstMode.code : VstMode → BitVec 18
  | .x32 => 0
  | .bf => 1
  | .h => 2
  | .b => 3
  | .bu => 4

/-- The code read back; a code the spec does not define gives nothing. -/
def VstMode.ofCode (c : BitVec 18) : Option VstMode :=
  match c.toNat with
  | 0 => some .x32
  | 1 => some .bf
  | 2 => some .h
  | 3 => some .b
  | 4 => some .bu
  | _ => none

/-- HDRF fields (10 R255). -/
inductive HdrField where
  | state
  | efmt
  | slayout
  | sfmt
  | sparse
  | rows
  | cols
  | layout
  | flags
  | fill
  | owner
  | handle
  deriving DecidableEq, Repr

/-- Its code in the word. -/
def HdrField.code : HdrField → BitVec 5
  | .state => 0
  | .efmt => 1
  | .slayout => 2
  | .sfmt => 3
  | .sparse => 4
  | .rows => 5
  | .cols => 6
  | .layout => 7
  | .flags => 8
  | .fill => 9
  | .owner => 10
  | .handle => 11

/-- The code read back; a code the spec does not define gives nothing. -/
def HdrField.ofCode (c : BitVec 5) : Option HdrField :=
  match c.toNat with
  | 0 => some .state
  | 1 => some .efmt
  | 2 => some .slayout
  | 3 => some .sfmt
  | 4 => some .sparse
  | 5 => some .rows
  | 6 => some .cols
  | 7 => some .layout
  | 8 => some .flags
  | 9 => some .fill
  | 10 => some .owner
  | 11 => some .handle
  | _ => none

/-- The registers WRSR may write (08 R208, column Access). -/
def SysReg.writable : SysReg → Bool
  | .fcsr | .trappc | .trapinfo | .trapaddr | .tvbase | .asid | .dtb | .gtb => true
  | .events | .wp | .ctxid | .core | .cluster | .crew | .rank | .spansize | .region | .feat | .cycle | .stepping => false

/-- The registers of supervisor level (08 R208, column Level). -/
def SysReg.supervisor : SysReg → Bool
  | .trappc | .trapinfo | .trapaddr | .tvbase | .asid | .dtb | .gtb => true
  | .fcsr | .events | .wp | .ctxid | .core | .cluster | .crew | .rank | .spansize | .region | .feat | .cycle | .stepping => false

/-- Whether the conversion's rounding field applies (06 R146). -/
def CvtOp.rounds : CvtOp → Bool
  | .s_d | .l_d | .lu_d | .l_s | .lu_s | .w_s | .wu_s | .d_l | .d_lu | .s_l | .s_lu | .s_w => true
  | .d_s | .s_bf | .bf_s | .s_h | .h_s | .s_e4 | .e4_s | .s_e5 | .e5_s | .s_f4 | .f4_s => false

/-- Whether a packed kind has floating-point lanes (06 R150). -/
def LaneKind.isFloat : LaneKind → Bool
  | .bf | .s => true
  | .b | .h | .w => false

/-- Whether a packed conversion reads its second source (06 R153). -/
def PcvtOp.twoSources : PcvtOp → Bool
  | .bf_s | .e4_bf | .e5_bf | .b_h | .bu_h => true
  | .s_bfl | .s_bfh | .h_bl | .h_bh => false

/-- A tile register of an MX, by its tile code (09 R217). -/
inductive TileReg where
  | h (n : BitVec 4)
  | b (n : BitVec 2)
  | c (n : BitVec 3)
  deriving DecidableEq, Repr

/-- A B operand of MMA is an h register or a weight-buffer slot (09 R219). -/
def TileReg.isOperandB : TileReg → Bool
  | .h _ | .b _ => true
  | .c _ => false

/-- The two matrix units of a cluster (00 R3). -/
inductive MxUnit where
  | mx0
  | mx1
  deriving DecidableEq, Repr

/-- A host port: port A or the x16 port, and port B (14 R336). -/
inductive Port where
  | a
  | b
  deriving DecidableEq, Repr

/-- Who makes a store to a control register (15 R347): a host port, the service core, or a device context by CTXID. -/
inductive Storer where
  | port (p : Port)
  | service
  | context (c : Nat)
  deriving DecidableEq, Repr

/-- What arrives with a reply: nothing from outside (the access was made on this device), the data another device or the host
returned, or the fault it reported: code, DETAIL, and how far past the first byte (ECCUNCORR: past its granule) lies the address that a
report names (14 R333, R334, R338; 13 R308). -/
inductive Reply where
  | here
  | data (v : BitVec 512)
  | fault (code detail off : Nat)
  deriving DecidableEq, Repr

/-- Who retries a queue step on a full fault queue (13 R311, R313). -/
inductive RetryAgent where
  | context (c : Nat)
  | binder (k : Nat)
  | launch (region : Nat) (outside : List Reply)
  | notice (k : Nat)
  deriving DecidableEq, Repr

/-- One telemetry sample (15 R361): package power in mW, power of dies 0 to 3 and of the I/O die, hottest junctions of the same
five, and temperatures of the twelve HBM stacks, in 1/16 degree. -/
structure Telemetry where
  power : Nat
  diePower : List Nat
  junction : List Nat
  stackTemp : List Nat
  deriving DecidableEq, Repr

/-- Who made a posted write that its target answers (14 R333, R338): a core, from its store path, or a copy engine. -/
inductive Poster where
  | core (n : Nat)
  | engine (e : Nat)
  | ring                          -- the ring entries that agents other than a core's instructions write (07 R183)
  deriving DecidableEq, Repr

/-- A store to a mailbox's doorbell (15 R348, R356): whose mailbox it is, and who stores. -/
structure BoxStore where
  box : Port
  who : Storer
  deriving DecidableEq, Repr

/-- What FWCOMMIT finds in a staged image (15 R358): whether its signature is good, and its rollback number. -/
structure ImageCheck where
  signed : Bool
  rollback : Nat
  deriving DecidableEq, Repr

/-- The accesses another device makes on this one (14 R333). `supervisor` and `region` are those of the issuing context.
DESIGN CHOICE (entry 57); safe. -/
inductive DxlKind where
  | read (len : Nat)
  | write (data : List Byte)
  | amo (fn : Nat) (word : Bool) (x : Word) (expected : Word)
  | lacZero
  | lacAdd (k : LacKind) (x : Word)
  | lacRound (rm : Nat)
  | sbit (shift width : Nat) (x : Word)
  | trow (row off : Nat) (data : List Byte)            -- the place in the buffer is that of the first step's header (07 R163)
  | telm (shift width off : Nat) (data : List Byte)
  | tfill (count : Nat)
  | head                                               -- the first step of TROW or TELM
  | thdr                                               -- THDR's read of a header (07 R169)
  | gleanRead (len : Nat)
  | gleanWrite (data : List Byte)                      -- a member write of GST (08 R202)
  | join
  | check (len : Nat)                                  -- the tests of a write of so many bytes, before any part of it is made (06 R126)
  | forgo (len : Nat)                                  -- a write that has passed its tests is not made
  deriving DecidableEq, Repr

/-- A remote request as it arrives over DXL (14 R332, R333): its source device, the issuing region and level, the local address
and what it asks. -/
structure DxlRequest where
  dev : Nat
  region : Nat
  supervisor : Bool
  posted : Bool
  addr : Nat
  kind : DxlKind
  deriving DecidableEq, Repr


/-- The steps of the part, one constructor per row of the opcode table: swarm words (chapters 04 to 08), MX ops
(chapters 09 and 10), and the events and commands that the hardware itself and the outside make. -/
inductive Instr where
  /-- R104: Writes the sum of two registers modulo 2^64 to wd. -/
  | add (d : Reg) (a : Reg) (b : Reg)
  /-- R104: Writes the difference of two registers modulo 2^64 to wd. -/
  | sub (d : Reg) (a : Reg) (b : Reg)
  /-- R104: Writes the low 64 bits of the product of two registers to wd. -/
  | mul (d : Reg) (a : Reg) (b : Reg)
  /-- R104: Writes the high 64 bits of the signed 128-bit product to wd. -/
  | mulh (d : Reg) (a : Reg) (b : Reg)
  /-- R104: Writes the high 64 bits of the unsigned 128-bit product to wd. -/
  | mulhu (d : Reg) (a : Reg) (b : Reg)
  /-- R106: Writes the signed quotient rounded toward zero, with fixed results for division by zero and overflow. -/
  | div (d : Reg) (a : Reg) (b : Reg)
  /-- R106: Writes the unsigned quotient, all ones for division by zero. -/
  | divu (d : Reg) (a : Reg) (b : Reg)
  /-- R106: Writes the signed remainder, the dividend for division by zero. -/
  | rem (d : Reg) (a : Reg) (b : Reg)
  /-- R106: Writes the unsigned remainder, the dividend for division by zero. -/
  | remu (d : Reg) (a : Reg) (b : Reg)
  /-- R104: Writes the bitwise and of two registers. -/
  | and (d : Reg) (a : Reg) (b : Reg)
  /-- R104: Writes the bitwise or of two registers. -/
  | or (d : Reg) (a : Reg) (b : Reg)
  /-- R104: Writes the bitwise exclusive or of two registers. -/
  | xor (d : Reg) (a : Reg) (b : Reg)
  /-- R107: Shifts wa left by Ws(b)[5:0] bits. -/
  | shl (d : Reg) (a : Reg) (b : Reg)
  /-- R107: Shifts wa right logically by Ws(b)[5:0] bits. -/
  | shr (d : Reg) (a : Reg) (b : Reg)
  /-- R107: Shifts wa right arithmetically by Ws(b)[5:0] bits. -/
  | sra (d : Reg) (a : Reg) (b : Reg)
  /-- R107: Rotates wa right by Ws(b)[5:0] bits. -/
  | rot (d : Reg) (a : Reg) (b : Reg)
  /-- R104: Writes the count of leading zero bits of wa. -/
  | clz (d : Reg) (a : Reg)
  /-- R104: Writes the count of trailing zero bits of wa. -/
  | ctz (d : Reg) (a : Reg)
  /-- R104: Writes the count of one bits of wa. -/
  | popc (d : Reg) (a : Reg)
  /-- R104: Writes the signed minimum of two registers. -/
  | min (d : Reg) (a : Reg) (b : Reg)
  /-- R104: Writes the signed maximum of two registers. -/
  | max (d : Reg) (a : Reg) (b : Reg)
  /-- R104: Writes the unsigned minimum of two registers. -/
  | minu (d : Reg) (a : Reg) (b : Reg)
  /-- R104: Writes the unsigned maximum of two registers. -/
  | maxu (d : Reg) (a : Reg) (b : Reg)
  /-- R104: Writes 1 when wa is signed-less than wb, else 0. -/
  | slt (d : Reg) (a : Reg) (b : Reg)
  /-- R104: Writes 1 when wa is unsigned-less than wb, else 0. -/
  | sltu (d : Reg) (a : Reg) (b : Reg)
  /-- R105: Writes wa when the modifier-named register wc is nonzero, else wb. -/
  | sel (d : Reg) (a : Reg) (b : Reg) (c : Reg)
  /-- R114: Writes the fixed HASH mixing function of a value and a seed. -/
  | hash (d : Reg) (a : Reg) (b : Reg)
  /-- R113: Writes the counter-based random number of a key and a counter. -/
  | crng (d : Reg) (a : Reg) (b : Reg)
  /-- R116: Reads a distribution descriptor and writes the owning rank and byte offset of a coordinate. -/
  | loc (d : Reg) (a : Reg) (b : Reg)
  /-- R118: Forms a crew-aperture address from an absolute rank and an offset. -/
  | peer (d : Reg) (a : Reg) (b : Reg)
  /-- R118: Forms a crew-aperture address from a rank relative to RANK modulo SPANSIZE and an offset. -/
  | peerWrap (d : Reg) (a : Reg) (b : Reg)
  /-- R118: Forms a crew-aperture address from a LOC result. -/
  | peerLoc (d : Reg) (a : Reg)
  /-- R121: Jumps to the address in wa and writes the return address to wd. -/
  | jr (d : Reg) (a : Reg)
  /-- R123: Moves the context to another workspace of its core and writes the old WP in the new workspace. -/
  | swapws (d : Reg) (a : Reg)
  /-- R108: Adds a sign-extended immediate to wa. -/
  | addi (d : Reg) (a : Reg) (i : BitVec 16)
  /-- R108: Ands wa with a zero-extended immediate. -/
  | andi (d : Reg) (a : Reg) (i : BitVec 16)
  /-- R108: Ors wa with a zero-extended immediate. -/
  | ori (d : Reg) (a : Reg) (i : BitVec 16)
  /-- R108: Exclusive-ors wa with a zero-extended immediate. -/
  | xori (d : Reg) (a : Reg) (i : BitVec 16)
  /-- R108: Writes 1 when wa is signed-less than the sign-extended immediate. -/
  | slti (d : Reg) (a : Reg) (i : BitVec 16)
  /-- R110: Shifts wd left by 16 and ors in a 16-bit immediate. -/
  | ldhi (d : Reg) (i : BitVec 16)
  /-- R111: Writes the PC plus the sign-extended immediate times 2^16. -/
  | addpc (d : Reg) (i : BitVec 16)
  /-- R107: Shifts wa left by an immediate amount. -/
  | shli (d : Reg) (a : Reg) (n : BitVec 6)
  /-- R107: Shifts wa right logically by an immediate amount. -/
  | shri (d : Reg) (a : Reg) (n : BitVec 6)
  /-- R107: Shifts wa right arithmetically by an immediate amount. -/
  | srai (d : Reg) (a : Reg) (n : BitVec 6)
  /-- R107: Rotates wa right by an immediate amount. -/
  | roti (d : Reg) (a : Reg) (n : BitVec 6)
  /-- R109: Extracts a bit field of wa and zero-extends it. -/
  | bfx (d : Reg) (a : Reg) (w : BitVec 6) (l : BitVec 6)
  /-- R109: Inserts the low bits of wa into a field of wd. -/
  | bfi (d : Reg) (a : Reg) (w : BitVec 6) (l : BitVec 6)
  /-- R119: Branches when the two registers are equal. -/
  | beq (a : Reg) (b : Reg) (o : BitVec 16)
  /-- R119: Branches when the two registers differ. -/
  | bne (a : Reg) (b : Reg) (o : BitVec 16)
  /-- R119: Branches when wa is signed-less than wb. -/
  | blt (a : Reg) (b : Reg) (o : BitVec 16)
  /-- R119: Branches when wa is signed-greater or equal to wb. -/
  | bge (a : Reg) (b : Reg) (o : BitVec 16)
  /-- R119: Branches when wa is unsigned-less than wb. -/
  | bltu (a : Reg) (b : Reg) (o : BitVec 16)
  /-- R119: Branches when wa is unsigned-greater or equal to wb. -/
  | bgeu (a : Reg) (b : Reg) (o : BitVec 16)
  /-- R120: Jumps by a sign-extended 26-bit offset times 4. -/
  | jmp (o : BitVec 26)
  /-- R120: Jumps by a 26-bit offset and writes PC + 4 to w31. -/
  | call (o : BitVec 26)
  /-- R130: Loads a byte and sign-extends it. -/
  | lb (d : Reg) (a : Reg) (i : BitVec 16)
  /-- R130: Loads a byte and zero-extends it. -/
  | lbu (d : Reg) (a : Reg) (i : BitVec 16)
  /-- R130: Loads a halfword and sign-extends it. -/
  | lh (d : Reg) (a : Reg) (i : BitVec 16)
  /-- R130: Loads a halfword and zero-extends it. -/
  | lhu (d : Reg) (a : Reg) (i : BitVec 16)
  /-- R130: Loads a word and sign-extends it. -/
  | lw (d : Reg) (a : Reg) (i : BitVec 16)
  /-- R130: Loads a word and zero-extends it. -/
  | lwu (d : Reg) (a : Reg) (i : BitVec 16)
  /-- R130: Loads a doubleword. -/
  | ld (d : Reg) (a : Reg) (i : BitVec 16)
  /-- R132: Loads 16 bytes into an even/odd register pair. -/
  | lq (d : Reg) (a : Reg) (i : BitVec 16)
  /-- R130: Stores the low byte of wd. -/
  | sb (d : Reg) (a : Reg) (i : BitVec 16)
  /-- R130: Stores the low halfword of wd. -/
  | sh (d : Reg) (a : Reg) (i : BitVec 16)
  /-- R130: Stores the low word of wd. -/
  | sw (d : Reg) (a : Reg) (i : BitVec 16)
  /-- R130: Stores the doubleword wd. -/
  | sd (d : Reg) (a : Reg) (i : BitVec 16)
  /-- R132: Stores an even/odd register pair as 16 bytes. -/
  | sq (d : Reg) (a : Reg) (i : BitVec 16)
  /-- R135: Prefetches a line or translation as a hint, with no architectural effect. -/
  | pfl (h : PflHint) (a : Reg) (i : BitVec 16)
  /-- R133: Loads a 1- to 8-bit field at a bit address, zero- or sign-extended. -/
  | lbit (d : Reg) (a : Reg) (b : Reg) (x : Bool) (w : BitVec 3)
  /-- R134: Writes a 1- to 8-bit field at a bit address as an atomic read-modify-write per doubleword. -/
  | sbit (d : Reg) (a : Reg) (b : Reg) (w : BitVec 3)
  /-- R131: Loads a sign-extended byte as an acquire at its scope. -/
  | memordLb (d : Reg) (a : Reg) (s : Scope)
  /-- R131: Loads a zero-extended byte as an acquire at its scope. -/
  | memordLbu (d : Reg) (a : Reg) (s : Scope)
  /-- R131: Loads a sign-extended halfword as an acquire at its scope. -/
  | memordLh (d : Reg) (a : Reg) (s : Scope)
  /-- R131: Loads a zero-extended halfword as an acquire at its scope. -/
  | memordLhu (d : Reg) (a : Reg) (s : Scope)
  /-- R131: Loads a sign-extended word as an acquire at its scope. -/
  | memordLw (d : Reg) (a : Reg) (s : Scope)
  /-- R131: Loads a zero-extended word as an acquire at its scope. -/
  | memordLwu (d : Reg) (a : Reg) (s : Scope)
  /-- R131: Loads a doubleword as an acquire at its scope. -/
  | memordLd (d : Reg) (a : Reg) (s : Scope)
  /-- R131: Loads 16 bytes into a register pair as an acquire at its scope. -/
  | memordLq (d : Reg) (a : Reg) (s : Scope)
  /-- R131: Stores a byte as a release at its scope. -/
  | memordSb (d : Reg) (a : Reg) (s : Scope)
  /-- R131: Stores a halfword as a release at its scope. -/
  | memordSh (d : Reg) (a : Reg) (s : Scope)
  /-- R131: Stores a word as a release at its scope. -/
  | memordSw (d : Reg) (a : Reg) (s : Scope)
  /-- R131: Stores a doubleword as a release at its scope. -/
  | memordSd (d : Reg) (a : Reg) (s : Scope)
  /-- R131: Stores a register pair as a release at its scope. -/
  | memordSq (d : Reg) (a : Reg) (s : Scope)
  /-- R136: Atomically adds wb to memory and returns the old value. -/
  | amoAdd (d : Reg) (a : Reg) (b : Reg) (z : AmoSize) (s : Scope) (p : Order)
  /-- R136: Atomically ands wb into memory and returns the old value. -/
  | amoAnd (d : Reg) (a : Reg) (b : Reg) (z : AmoSize) (s : Scope) (p : Order)
  /-- R136: Atomically ors wb into memory and returns the old value. -/
  | amoOr (d : Reg) (a : Reg) (b : Reg) (z : AmoSize) (s : Scope) (p : Order)
  /-- R136: Atomically exclusive-ors wb into memory and returns the old value. -/
  | amoXor (d : Reg) (a : Reg) (b : Reg) (z : AmoSize) (s : Scope) (p : Order)
  /-- R136: Atomically stores the signed minimum and returns the old value. -/
  | amoMin (d : Reg) (a : Reg) (b : Reg) (z : AmoSize) (s : Scope) (p : Order)
  /-- R136: Atomically stores the signed maximum and returns the old value. -/
  | amoMax (d : Reg) (a : Reg) (b : Reg) (z : AmoSize) (s : Scope) (p : Order)
  /-- R136: Atomically stores the unsigned minimum and returns the old value. -/
  | amoMinu (d : Reg) (a : Reg) (b : Reg) (z : AmoSize) (s : Scope) (p : Order)
  /-- R136: Atomically stores the unsigned maximum and returns the old value. -/
  | amoMaxu (d : Reg) (a : Reg) (b : Reg) (z : AmoSize) (s : Scope) (p : Order)
  /-- R136: Atomically swaps wb into memory and returns the old value. -/
  | amoSwp (d : Reg) (a : Reg) (b : Reg) (z : AmoSize) (s : Scope) (p : Order)
  /-- R136: Atomically adds a float to memory under RNE and returns the old value. -/
  | amoFadd (d : Reg) (a : Reg) (b : Reg) (z : AmoSize) (s : Scope) (p : Order)
  /-- R136: Atomically compares memory with wd and stores wb on a match, returning the old value. -/
  | amocas (d : Reg) (a : Reg) (b : Reg) (z : AmoSize) (s : Scope) (p : Order)
  /-- R138: Orders earlier and later accesses at a scope, draining stores and invalidating the L1D as its order requires. -/
  | fence (s : Scope) (p : Order)
  /-- R139: Invalidates the I-caches and fetch agents within a scope and waits for their acknowledgements. -/
  | icsync (s : Scope)
  /-- R141: Adds two floating-point registers, rounded once. -/
  | fadd (d : Reg) (a : Reg) (b : Reg) (r : Rm) (p : Prec)
  /-- R141: Subtracts two floating-point registers, rounded once. -/
  | fsub (d : Reg) (a : Reg) (b : Reg) (r : Rm) (p : Prec)
  /-- R141: Multiplies two floating-point registers, rounded once. -/
  | fmul (d : Reg) (a : Reg) (b : Reg) (r : Rm) (p : Prec)
  /-- R141: Computes a times b plus wd, fused and rounded once. -/
  | fma (d : Reg) (a : Reg) (b : Reg) (r : Rm) (p : Prec)
  /-- R143: Returns the smaller operand under the NaN and signed-zero rules. -/
  | fmin (d : Reg) (a : Reg) (b : Reg) (p : Prec)
  /-- R143: Returns the larger operand under the NaN and signed-zero rules. -/
  | fmax (d : Reg) (a : Reg) (b : Reg) (p : Prec)
  /-- R144: Writes 1 when the selected comparison predicate holds. -/
  | fcmp (d : Reg) (a : Reg) (b : Reg) (c : CmpOp) (p : Prec)
  /-- R146: Converts one value between the float and integer formats named by the conversion code. -/
  | fcvt (d : Reg) (a : Reg) (c : CvtOp) (r : Rm)
  /-- R145: Writes the magnitude of a with a sign derived from a and b, moving bits without flags. -/
  | fsgn (d : Reg) (a : Reg) (b : Reg) (o : SgnOp) (p : Prec)
  /-- R147: Queues a division on the shared SFU. -/
  | fdiv (d : Reg) (a : Reg) (b : Reg) (r : Rm) (p : Prec)
  /-- R147: Queues a square root on the shared SFU. -/
  | fsqrt (d : Reg) (a : Reg) (r : Rm) (p : Prec)
  /-- R147: Queues a reciprocal on the shared SFU. -/
  | frcp (d : Reg) (a : Reg) (r : Rm) (p : Prec)
  /-- R147: Queues a reciprocal square root on the shared SFU. -/
  | frsq (d : Reg) (a : Reg) (r : Rm) (p : Prec)
  /-- R147: Queues a base-2 exponential on the shared SFU. -/
  | fexp2 (d : Reg) (a : Reg) (r : Rm) (p : Prec)
  /-- R147: Queues a base-2 logarithm on the shared SFU. -/
  | flog2 (d : Reg) (a : Reg) (r : Rm) (p : Prec)
  /-- R151: Adds packed lanes, wrapping or saturating. -/
  | padd (d : Reg) (a : Reg) (b : Reg) (u : Bool) (s : Bool) (k : LaneKind)
  /-- R151: Subtracts packed lanes, wrapping or saturating. -/
  | psub (d : Reg) (a : Reg) (b : Reg) (u : Bool) (s : Bool) (k : LaneKind)
  /-- R151: Multiplies packed lanes. -/
  | pmul (d : Reg) (a : Reg) (b : Reg) (u : Bool) (s : Bool) (k : LaneKind)
  /-- R151: Computes a times b plus d per lane, fused. -/
  | pfma (d : Reg) (a : Reg) (b : Reg) (u : Bool) (s : Bool) (k : LaneKind)
  /-- R151: Takes the per-lane minimum. -/
  | pmin (d : Reg) (a : Reg) (b : Reg) (u : Bool) (k : LaneKind)
  /-- R151: Takes the per-lane maximum. -/
  | pmax (d : Reg) (a : Reg) (b : Reg) (u : Bool) (k : LaneKind)
  /-- R152: Adds the exact dot product of all lanes to wd, rounded once for floats. -/
  | pdot (d : Reg) (a : Reg) (b : Reg) (u : Bool) (k : LaneKind)
  /-- R153: Converts packed lanes as the modifier code selects. -/
  | pcvt (d : Reg) (a : Reg) (b : Reg) (m : PcvtOp)
  /-- R154: Permutes bytes of wa and the old wd by a nibble index vector. -/
  | pshuf (d : Reg) (a : Reg) (b : Reg)
  /-- R155: Sets each lane to all ones when its predicate holds, else zero. -/
  | pcmp (d : Reg) (a : Reg) (b : Reg) (c : PcmpOp) (k : LaneKind)
  /-- R156: Clears bytes 0 to 47 of a long accumulator in one atomic step. -/
  | lacz (a : Reg)
  /-- R156: Adds one FP32, BF16 or FP16 value exactly to a long accumulator by LacAdd. -/
  | laca (a : Reg) (b : Reg) (k : LacKind)
  /-- R156: Reads a long accumulator and writes its value rounded once by LacRound. -/
  | lacr (d : Reg) (a : Reg)
  /-- R162: Opens a FREE tile buffer, tagging its granules and optionally arming a seal timer. -/
  | topen (d : Reg) (a : Reg) (b : Reg)
  /-- R163: Writes one stored row of an OPEN buffer from memory in two steps at the header's bank. -/
  | trow (d : Reg) (a : Reg) (b : Reg) (c : Reg)
  /-- R164: Writes one element of an OPEN buffer. -/
  | telm (d : Reg) (a : Reg) (b : Reg) (c : Reg)
  /-- R165: Releases and then advances FILL and the mask of an OPEN buffer without writing the body. -/
  | tfill (d : Reg) (a : Reg) (b : Reg)
  /-- R166: Releases at CREW scope and requests the seal of an OPEN or RESULT buffer to a hold shelf. -/
  | seal (d : Reg) (a : Reg) (b : Reg)
  /-- R168: Returns an OPEN or RESULT buffer to FREE. -/
  | tfree (a : Reg)
  /-- R169: Reads one doubleword of a tile header in one step. -/
  | thdr (d : Reg) (a : Reg) (n : BitVec 2)
  /-- R172: Snapshots a layout record and queues a copy to an engine, counting it on a tag. -/
  | xcp (d : Reg) (a : Reg) (b : Reg)
  /-- R180: Sends a query to the work distributor, counting it on a tag. -/
  | wdq (d : Reg) (a : Reg) (b : Reg)
  /-- R176: Waits until a tag has COUNT 0 or FAULT 1, then acquires and returns the tag word. -/
  | ctwait (d : Reg) (a : Reg)
  /-- R176: Waits until some tag of a mask has COUNT 0 or FAULT 1 and returns the lowest such tag. -/
  | ctany (d : Reg) (a : Reg)
  /-- R177: Returns a tag word and clears its fault bit and slot, letting a parked report land. -/
  | ctff (d : Reg) (a : Reg)
  /-- R177: Returns a tag word or one fault-report word without waiting. -/
  | ctrd (d : Reg) (a : Reg) (n : BitVec 3)
  /-- R183: Releases and appends an entry to a hardware queue, or diverts or refuses it. -/
  | enq (d : Reg) (a : Reg) (b : Reg) (e : EntrySize)
  /-- R184: Removes the head entry of a hardware queue into memory and acquires. -/
  | deq (d : Reg) (a : Reg) (b : Reg) (e : EntrySize)
  /-- R184: Returns the count of a hardware queue. -/
  | qinfo (d : Reg) (a : Reg)
  /-- R187: Reads a future cell, deferring until it fills when empty. -/
  | ldf (d : Reg) (a : Reg)
  /-- R187: Reads a future cell, returning EMPTY rather than waiting. -/
  | ldfNw (d : Reg) (a : Reg)
  /-- R188: Releases and fills an empty future cell, answering its deferred LDFs. -/
  | stf (d : Reg) (a : Reg) (b : Reg)
  /-- R188: Clears a future cell in one step. -/
  | fclr (d : Reg) (a : Reg)
  /-- R189: Pushes a continuation record onto the own crew's task queue. -/
  | spawn (d : Reg) (a : Reg)
  /-- R189: Pushes a continuation record onto the task queue of another crew of the span. -/
  | spawnPeer (d : Reg) (a : Reg) (b : Reg)
  /-- R190: Suspends the continuation, storing its record at an address. -/
  | susp (d : Reg) (a : Reg)
  /-- R190: Suspends the continuation by pushing its record onto the own task queue. -/
  | suspRequeue (d : Reg)
  /-- R191: Retires the continuation, decrementing its join record and waking the parent on the last arrival. -/
  | endTask
  /-- R199: Reads one offset in every present group member and returns the rank-ordered tree reduction. -/
  | gld (d : Reg) (a : Reg) (m : GleanOp)
  /-- R200: Starts a 64-byte glean reduction into the own scratchpad, counted on a tag. -/
  | gldm (d : Reg) (a : Reg) (b : Reg) (m : GleanOp)
  /-- R202: Releases and writes a value at one offset in every present group member. -/
  | gst (d : Reg) (a : Reg) (b : Reg) (w : AmoSize)
  /-- R203: Releases and arrives at a group barrier, ending the phase when all present members have arrived. -/
  | garr (d : Reg) (a : Reg)
  /-- R204: Waits until a group barrier's phase passes a token, deferring at the slice or coordinator. -/
  | gwait (d : Reg) (a : Reg) (b : Reg)
  /-- R205: Releases and ORs event bits into another context's EVENTS. -/
  | evsend (a : Reg) (b : Reg)
  /-- R206: Waits until an event bit of a mask is set, then consumes and returns those bits. -/
  | wait (d : Reg) (a : Reg)
  /-- R207: Holds the context IN-FLIGHT for a delay, leaving issue slots to others. -/
  | yield (a : Reg)
  /-- R208: Reads a system register into wd. -/
  | rdsr (d : Reg) (i : SysReg)
  /-- R208: Writes wa to a system register. -/
  | wrsr (a : Reg) (i : SysReg)
  /-- R209: Raises TRAPINSN, dispatching to the fault queue at user level or to TVBASE at supervisor level. -/
  | trap (n : BitVec 5)
  /-- R210: Jumps to TRAPPC at supervisor level. -/
  | eret
  /-- R211: Completes after 8 s-cycles and changes nothing. -/
  | nop
  /-- R237: Streams A times B onto an accumulator register on the array by GroupSum. -/
  | mma (c : BitVec 3) (h : BitVec 4) (t : TileReg)
  /-- R237: Streams A times B into an accumulator register from zero, writing an inferred header. -/
  | mmaz (c : BitVec 3) (h : BitVec 4) (t : TileReg)
  /-- R238: Copies a TAKEN tile into a weight-buffer slot in stored form. -/
  | wload (b : BitVec 2) (h : BitVec 4)
  /-- R238: Empties a weight-buffer slot. -/
  | wdrop (b : BitVec 2)
  /-- R239: Writes a zero FP32 or INT32 accumulator with a result header. -/
  | czero (c : BitVec 3) (e : BitVec 8) (rows : BitVec 7) (cols : BitVec 7)
  /-- R240: Loads an accumulator register from a TAKEN tile. -/
  | cload (c : BitVec 3) (h : BitVec 4)
  /-- R241: Writes an accumulator to scratchpad as a RESULT buffer, converting its elements. -/
  | cstore (c : BitVec 3) (sa : Reg) (disp : BitVec 32) (e : BitVec 8) (ly : BitVec 2) (sl : BitVec 3) (sf : BitVec 2)
  /-- R242: Reads one accumulator row into a vector register. -/
  | crow (v : Reg) (c : BitVec 3) (sb : Reg)
  /-- R242: Writes a vector register into one accumulator row. -/
  | cput (c : BitVec 3) (v : Reg) (sb : Reg)
  /-- R245: Adds vector lanes. -/
  | vadd (v : Reg) (a : Reg) (b : Reg) (k : VKind) (p : Option (BitVec 3))
  /-- R245: Subtracts vector lanes. -/
  | vsub (v : Reg) (a : Reg) (b : Reg) (k : VKind) (p : Option (BitVec 3))
  /-- R245: Multiplies vector lanes. -/
  | vmul (v : Reg) (a : Reg) (b : Reg) (k : VKind) (p : Option (BitVec 3))
  /-- R245: Computes a fused multiply-add per FP32 lane. -/
  | vfma (v : Reg) (a : Reg) (b : Reg) (c : Reg) (p : Option (BitVec 3))
  /-- R245: Takes the per-lane maximum. -/
  | vmax (v : Reg) (a : Reg) (b : Reg) (k : VKind) (p : Option (BitVec 3))
  /-- R245: Takes the per-lane minimum. -/
  | vmin (v : Reg) (a : Reg) (b : Reg) (k : VKind) (p : Option (BitVec 3))
  /-- R245: Takes the per-lane absolute value. -/
  | vabs (v : Reg) (a : Reg) (k : VKind) (p : Option (BitVec 3))
  /-- R246: Writes a predicate register from a per-lane comparison. -/
  | vcmp (q : BitVec 3) (a : Reg) (b : Reg) (cc : CmpOp) (k : VKind) (p : Option (BitVec 3))
  /-- R246: Selects lanes from two vectors by a predicate. -/
  | vsel (v : Reg) (a : Reg) (b : Reg) (q : BitVec 3) (p : Option (BitVec 3))
  /-- R247: Converts each enabled lane as F selects. -/
  | vcvt (v : Reg) (a : Reg) (f : VcvtOp) (p : Option (BitVec 3))
  /-- R248: Reduces 128 lanes by sum into a scalar register using the rank tree. -/
  | vreds (s : Reg) (a : Reg) (k : VKind) (p : Option (BitVec 3))
  /-- R248: Reduces 128 lanes by maximum or minimum into a scalar register. -/
  | vredm (s : Reg) (a : Reg) (f : RedmOp) (p : Option (BitVec 3))
  /-- R245: Broadcasts a scalar register into every enabled lane. -/
  | vbcast (v : Reg) (sa : Reg) (p : Option (BitVec 3))
  /-- R249: Loads 128 lanes from the scratchpad as an acquire at CREW scope. -/
  | vld (v : Reg) (sa : Reg) (disp : BitVec 32) (f : VldMode) (p : Option (BitVec 3))
  /-- R249: Stores 128 lanes to the scratchpad as a release at CREW scope. -/
  | vst (v : Reg) (sa : Reg) (disp : BitVec 32) (f : VstMode) (p : Option (BitVec 3))
  /-- R243: Writes a brick bitmap keeping the k highest-scoring bricks per brick row of an accumulator. -/
  | btopk (s : Reg) (c : BitVec 3) (sb : Reg) (disp : BitVec 32)
  /-- R250: Computes 2^a per FP32 lane, rounded once. -/
  | xexp2 (v : Reg) (a : Reg) (p : Option (BitVec 3))
  /-- R250: Computes log2 a per FP32 lane, rounded once. -/
  | xlog2 (v : Reg) (a : Reg) (p : Option (BitVec 3))
  /-- R250: Computes 1/a per FP32 lane, rounded once. -/
  | xrcp (v : Reg) (a : Reg) (p : Option (BitVec 3))
  /-- R250: Computes 1/sqrt a per FP32 lane, rounded once. -/
  | xrsq (v : Reg) (a : Reg) (p : Option (BitVec 3))
  /-- R250: Computes tanh a per FP32 lane, rounded once. -/
  | xtanh (v : Reg) (a : Reg) (p : Option (BitVec 3))
  /-- R250: Computes the logistic sigmoid per FP32 lane, rounded once. -/
  | xsig (v : Reg) (a : Reg) (p : Option (BitVec 3))
  /-- R234: Removes the oldest handle from the MX's hold shelf and marks its buffer TAKEN, as an acquire. -/
  | take (h : BitVec 4)
  /-- R235: Passes a TAKEN buffer to the other MX's shelf as a release. -/
  | give (h : BitVec 4)
  /-- R236: Returns a TAKEN buffer to FREE and empties the h register. -/
  | hrel (h : BitVec 4)
  /-- R251: Adds two scalar registers modulo 2^32. -/
  | sadd (s : Reg) (a : Reg) (b : Reg)
  /-- R251: Subtracts two scalar registers modulo 2^32. -/
  | ssub (s : Reg) (a : Reg) (b : Reg)
  /-- R251: Ands two scalar registers. -/
  | sand (s : Reg) (a : Reg) (b : Reg)
  /-- R251: Shifts a scalar left or right by a signed amount. -/
  | sshl (s : Reg) (a : Reg) (b : Reg)
  /-- R251: Adds a 32-bit immediate to a scalar register. -/
  | saddi (s : Reg) (a : Reg) (imm : BitVec 32)
  /-- R251: Loads a 32-bit immediate into a scalar register. -/
  | sldi (s : Reg) (imm : BitVec 32)
  /-- R252: Loads 4 scratchpad bytes into a scalar register as an acquire. -/
  | sld (s : Reg) (a : Reg) (disp : BitVec 32)
  /-- R252: Stores a scalar register to 4 scratchpad bytes as a release. -/
  | sst (s : Reg) (a : Reg) (disp : BitVec 32)
  /-- R253: Branches unconditionally to a line and bundle. -/
  | br (line : BitVec 10) (bun : BitVec 5)
  /-- R253: Branches when a scalar is nonzero, or zero for brc.z. -/
  | brc (s : Reg) (z : Bool) (line : BitVec 10) (bun : BitVec 5)
  /-- R253: Decrements a scalar and branches while it is nonzero. -/
  | loop (s : Reg) (line : BitVec 10) (bun : BitVec 5)
  /-- R254: Waits for earlier M ops and writes to complete and releases them at SYS scope. -/
  | drain
  /-- R254: Waits for earlier writes to perform and sends an event bit to a context as a release. -/
  | signal (s : Reg) (bit : BitVec 6)
  /-- R256: Waits for every M op to complete, lands pending writes and halts the MX. -/
  | halt
  /-- R221: Occupies the S slot and does nothing. -/
  | snop
  /-- R255: Reads one header field of a tile register into a scalar register. -/
  | hdrf (s : Reg) (t : TileReg) (f : HdrField)
  /-- R229: A V, X or S result lands in its register when the issued-bundle count reaches its landing number. -/
  | pendingWriteLand (k : Nat) (u : MxUnit)
  /-- R230: An M op ends its busy time, clearing its WB and RB bits and making its result visible. -/
  | mOpCompletion (k : Nat) (u : MxUnit)
  /-- R129: The reply of a load, AMO or other memory operation arrives and completes the context's instruction. -/
  | memoryReply (c : Nat) (r : Reply)
  /-- R260: An entry of a core's store path performs at its point of coherence. -/
  | storePathPerform (core : Nat) (n : Nat)
  /-- R148: The SFU ends a request's service, writes its result and flags and starts the next request. -/
  | sfuResult (core : Nat)
  /-- R207: A YIELD's delay expires and the context completes it. -/
  | yieldEnd (c : Nat)
  /-- R78: A seal timer expires and makes a seal request to its shelf. -/
  | timerExpiry (k : Nat) (hdr : Nat)
  /-- R77: A hold shelf serves its oldest pending SEAL, timer or GIVE request when a slot frees. -/
  | servePendingRequest (k : Nat) (u : MxUnit)
  /-- R17: A crew's binder binds the oldest suitable task-queue entry to an IDLE context or dispatches a refused entry. -/
  | bind (k : Nat)
  /-- R312: A handler continuation is bound in the faulting cluster from the region's template. -/
  | handlerBind (k : Nat) (outside : List Reply)
  /-- R311: A record waiting on a full fault queue retries its queue step after 4,096 s-cycles. -/
  | faultQueueRetry (who : RetryAgent)
  /-- R21: A crew with an empty queue, no bound context and halted MX units retires and its cluster starts draining. -/
  | crewRetirement (k : Nat)
  /-- R21: A draining cluster whose tags all reach COUNT 0 clears its tags and returns to the free pool. -/
  | clusterDrainEnd (k : Nat)
  /-- R282: The coordinator selects a candidate region and handles its head launch. -/
  | launchSelection (outside : List Reply)
  /-- R295: A copy engine runs a quantum of up to 1,024 elements for the region chosen by share rounds. -/
  | copyQuantum (e : Nat) (outside : List Reply)
  /-- R200: A GLDM's combined 64 bytes are written to the destination and its tag is decremented. -/
  | gldmResult (n : Nat) (outside : List Reply)
  /-- R331: The fetch agent completes a line fill and multicasts it to the I-caches on the same page. -/
  | fetchFill (core : Nat) (line : Nat)
  /-- R93: A context issues a fetched word that is unassigned or malformed, and it faults ILLEGAL precisely. -/
  | illegalWord (w : Word32)
  /-- R298: The refetch of a spilled queue descriptor completes at its home slice and releases the requests held on it. -/
  | descriptorRefetch (pa : Nat)
  /-- R346: A store to a control, counter or link register with no behaviour of its own updates its fields. -/
  | registerWrite (st : Storer) (addr : Nat) (v : Word)
  /-- R344: The ROM finishes checking the service firmware signature and the device enters stage 1, then stage 2 on success. -/
  | romCheckEnd (good : Bool)
  /-- R344: HBM training and compute-die self-test end, fencing failed clusters and setting TRAINED. -/
  | bringUpEnd (failed : List Nat)
  /-- R361: Every 1 ms the telemetry is refreshed and the throttle LEVEL rises or falls by power and temperature. -/
  | telemetryRefresh (t : Telemetry)
  /-- R332: A DXL flit arrives and is checked, accepted or resent by link-level retry. -/
  | dxlFlitReceive (q : DxlRequest)
  /-- R337: A host CXL.mem read of HBM is served at its home slice. -/
  | cxlMemRead (p : Port) (addr : Nat)
  /-- R337: A host CXL.mem write of HBM is performed at its home slice. -/
  | cxlMemWrite (p : Port) (addr : Nat) (data : BitVec 512) (mask : BitVec 64)
  /-- R337: A host read of a scratchpad window or core store through BAR 2 is served or refused. -/
  | bar2Read (p : Port) (addr : Nat) (len : Nat)
  /-- R337: A posted host write through BAR 2 is performed or dropped and logged. -/
  | bar2Write (p : Port) (addr : Nat) (data : List Byte)
  /-- R333: The target's acknowledgement of a posted write arrives, letting waiting releases complete. -/
  | postedWriteAck (from_ : Poster) (n : Nat) (r : Reply)
  /-- R334: A device silent on every path for 2 ms is declared lost, faulting outstanding accesses and acknowledging posted writes. -/
  | deviceLost (dev : Nat)
  /-- R337: The host answers a back-invalidate snoop, and the device write held at the home slice then performs. -/
  | backInvalidateAnswer (line : Nat)
  /-- R338: A host snoop keeps the I/O die's host-line cache coherent. -/
  | cxlCacheSnoop (line : Nat)
  /-- R293: The coordinator grants a work query the next grid point or the end token and stores the answer. -/
  | wdqGrant
  /-- R319: The coordinator starts a pending pre-emption and every cluster of the subtree quiesces. -/
  | preemptionEvent
  /-- R320: After all acknowledgements the engines copy each cluster's state image out and the region becomes PRE-EMPTED. -/
  | copyOut
  /-- R321: Once the saved clusters are free the images are copied back and the region becomes ACTIVE. -/
  | resumeCopyBack
  /-- R351: Region command that reads an RCB and makes the region ACTIVE. -/
  | activate
  /-- R318: Region command that requests pre-emption of a region subtree into an image area. -/
  | preempt
  /-- R321: Region command that resumes a pre-empted region from its image area. -/
  | resume
  /-- R351: Region command that ends every crew of a region subtree and makes it HALTED. -/
  | haltCommand
  /-- R351: Region command that makes a HALTED region holding no cluster INACTIVE. -/
  | deactivate
  /-- R314: CLCTL command that makes a FAULTED MX decode its bundle again. -/
  | mxresume (k : Nat) (u : MxUnit) (st : Storer)
  /-- R314: CLCTL command that stops an MX, lands its pending writes and halts it. -/
  | mxhalt (k : Nat) (u : MxUnit) (st : Storer)
  /-- R315: CLCTL command that holds a crew's user contexts, binder, MX units and timers in place. -/
  | freeze (k : Nat) (st : Storer)
  /-- R314: CLCTL command that returns a frozen crew to normal. -/
  | thaw (k : Nat) (st : Storer)
  /-- R315: CLCTL command that ends a frozen crew without further execution. -/
  | release (k : Nat) (st : Storer)
  /-- R307: Invalidates one page of an ASID in every TLB and walker of the package. -/
  | tlbinvPage (st : Storer) (asid : BitVec 16) (vpg : BitVec 40)
  /-- R307: Invalidates every page of an ASID in every TLB of the package. -/
  | tlbinvAsid (st : Storer) (asid : BitVec 16)
  /-- R307: Invalidates every translation entry of the package. -/
  | tlbinvAll (st : Storer)
  /-- R341: A store to a queue window slot's doorbell enqueues the staged entry to a hardware queue. -/
  | doorbell (st : Storer) (slot : Nat) (v : Word)
  /-- R347: A DEVSEM store requesting the semaphore takes it when free. -/
  | acq (st : Storer)
  /-- R347: A DEVSEM store releasing the semaphore frees it when the storer owns it. -/
  | rel (st : Storer)
  /-- R344: The semaphore owner's store of 3 to STAGE moves a trained device to stage 3. -/
  | stage (st : Storer) (v : Word)
  /-- R342: Writing 1 to CLR clears the fabric error log's COUNT, VALID and ADDR. -/
  | fabricLogClr (st : Storer) (v : Word)
  /-- R356: Mailbox command returning order code, stepping, serial and identity public key. -/
  | identity (p : Port) (mlen : BitVec 16)
  /-- R356: Mailbox command returning one piece of the certificate chain. -/
  | certs (p : Port) (mlen : BitVec 16)
  /-- R357: Mailbox command returning a signed attestation report over a nonce. -/
  | attest (p : Port) (mlen : BitVec 16)
  /-- R356: Mailbox command appending bytes to the firmware staging area. -/
  | fwstage (p : BoxStore) (mlen : BitVec 16)
  /-- R358: Mailbox command verifying the staged firmware and committing it for the next reset. -/
  | fwcommit (p : BoxStore) (mlen : BitVec 16) (good : ImageCheck)
  /-- R344: Power-good resets the device into stage 0. -/
  | powerGood
  /-- R344: A CXL hot reset of the host ports resets the device into stage 0. -/
  | cxlHotReset
  /-- R347: A host port's link goes down and the port loses semaphore ownership. -/
  | linkDown (p : Port)
  /-- R362: A junction or HBM over its critical temperature halts every region, powers down the compute dies and returns to stage 1. -/
  | criticalTrip
  /-- R317: An uncorrectable error in control state fences the cluster, freezes the crew and posts a notice. -/
  | controlStateEcc (k : Nat)
  /-- R333: An access from another device of the domain is performed at this device's point of coherence. -/
  | remoteAccess
  /-- R335: An SD to a queue pair's doorbell posts an RDMA work request. -/
  | workRequestPost (st : Storer) (qp : Nat) (v : Word)
  /-- R335: An inbound RDMA write is performed in the owning region's space or dropped and logged. -/
  | rdmaWrite (qp : Nat) (region : Nat) (va : Nat) (data : List Byte)
  /-- R335: An inbound RDMA write with immediate is performed or dropped and logged. -/
  | rdmaWriteWithImmediate (qp : Nat) (region : Nat) (va : Nat) (data : List Byte) (imm : Word32)
  /-- R335: An inbound RDMA read is served from HBM or scratchpad. -/
  | rdmaRead (qp : Nat) (region : Nat) (va : Nat) (len : Nat)
  /-- R335: An inbound RDMA send is received on a queue pair. -/
  | send (qp : Nat) (region : Nat) (va : Nat) (data : List Byte)
  /-- R335: An RDMA operation's completion entry is written after all its data has performed, as a release. -/
  | completionEntry (qp : Nat) (region : Nat) (va : Nat) (entry : List Byte)
  /-- R93: An instruction fetch at the PC fails translation, protection or ECC, and the fault is raised with TRAPADDR = PC. -/
  | fetchFault
  /-- R222: An MX attempts to issue the bundle at MXPC and it fails decode, for example on a zero line or a bad bundle index, faulting ILLEGAL or
  ECCUNCORR. -/
  | illegalBundle
  deriving DecidableEq, Repr

end Sys2Proof
end

