-- ==== Sys2Proof/Machine/State.lean ====
section
/-! DEFINITION. The state of the part as plain data, and the state after reset. Every field cites the rule that gives it. -/
namespace Sys2Proof.Machine

/-- Privilege of a context (01 R32). -/
inductive Level where
  | user
  | supervisor
  deriving DecidableEq, Repr

/-- What a fault reports beside the PC and the word (13 R308, R309): code, TRAPADDR, DETAIL, ACC, WALK and MRANK. -/
structure FaultInfo where
  code : Nat
  addr : Word
  detail : Nat
  acc : Nat
  walk : Bool
  mrank : Nat
  deriving DecidableEq, Repr

/-- A record for the fault queue and the handler that its step binds (13 R311 to R313): the 64 bytes, the fault's values, the
slot that faulted, and whether a handler follows. -/
structure FaultRecord where
  body : BitVec 512
  pc : Word
  info : Word
  addr : Word
  slot : Option Nat
  handler : Bool
  deriving DecidableEq, Repr

/-- What a WAITING context waits for (01 R9). -/
inductive WaitFor where
  | event (d : Reg) (mask : Word)                                  -- WAIT (08 R206)
  | future (d : Reg) (pa : Nat)                                    -- deferred LDF (07 R187)
  | phase (d : Reg) (desc : Option Nat) (span : Nat) (token : Nat) -- deferred GWAIT; none is group 0 (08 R204)
  | sealing (d : Reg) (hdr : Nat) (u : MxUnit)                     -- SEAL in a pending queue (03 R77)
  | tag (d : Reg) (t : Nat)                                        -- CTWAIT (07 R176)
  | anyTag (d : Reg) (mask : Word)                                 -- CTANY
  | sfu (n : Nat)                                                  -- special-function request number n of the core (06 R148)
  | dispatch (info : FaultInfo) (word : Word32) (next : Nat) (full : Bool)   -- a fault's dispatch (13 R311): held, or retrying on a full queue
  deriving DecidableEq, Repr

/-- A member of a resolved group (08 R194): its rank, cluster, device, and whether it is present. -/
structure Member where
  rank : Nat
  cluster : Nat
  dev : Nat
  here : Bool
  deriving DecidableEq, Repr

/-- What one member read returned: its value, or the member's fault code (08 R196). -/
structure MemberRead where
  rank : Nat
  value : BitVec 512
  failed : Option Nat
  deriving DecidableEq, Repr

/-- A two-step tile write between its steps (07 R163, R164): the header address, the element or row, and the geometry of the
first step's header. -/
structure RowStep where
  d : Reg
  hdrVa : Word
  pa : Nat
  row : Nat
  setMask : Bool
  shift : Nat
  width : Nat
  off : Nat
  data : List Byte
  deriving DecidableEq, Repr

/-- What the reply of an access at another device or at the host completes (14 R333, R338). -/
inductive RemoteWhat where
  | load (signed : Bool)          -- a register of the access's width, sign-extended or not
  | pair                          -- LQ (06 R132)
  | bits (sh width : Nat) (signed : Bool)   -- LBIT (06 R133)
  | nothing                       -- a store or LAC operation that writes no register
  | flags (n : Nat)               -- LACA: FCSR flags (06 R156)
  | lacr (rm : Nat)               -- LACR (06 R157)
  | hdr (n : Nat)                 -- THDR (07 R169)
  | status                        -- the second step of TROW or TELM, or TFILL: the status word
  | row (src : Word) (i : Nat)    -- the first step of TROW (07 R163)
  | elm (i j : Nat) (x : Word)    -- the first step of TELM (07 R164)
  | join                          -- END's join step: COUNT and WAKE (07 R191)
  | suspend (d : Reg)             -- SUSP's record, after which the context suspends (07 R190)
  | buffer                        -- bytes for an instruction that reads several things; it then goes on
  | agree (len : Nat)             -- the tests of a part of a write of so many bytes (06 R126); the instruction then goes on
  | written (rest : List Nat)     -- a part of a write whose tests had passed; the addresses of the parts still to be answered
  | hostLine (line : Nat)         -- a line for the host-line cache; the access is then made again
  | fetchLine (line : Nat)        -- a line of instructions; the fetch is then made again
  deriving DecidableEq, Repr

/-- An access outstanding at another device or the host: the register it writes, the address and ACC for a fault, the physical
address, the bytes the reply brings, the bytes of this device before and after them, and whether it acquires wider than CORE.
DESIGN CHOICE (entry 9); safe. -/
structure RemoteWait where
  d : Reg
  va : Word
  acc : Nat
  pa : Nat
  len : Nat
  pre : List Byte
  post : List Byte
  what : RemoteWhat
  acq : Bool
  deriving DecidableEq, Repr

/-- What a bound context is doing (01 R9, R10). READY is `idle`; IN-FLIGHT is every form from `reply` to `yielding`. -/
inductive CtxState where
  | idle
  | reply                                   -- the reply is on its way; the effect has been made
  | retry                                   -- the instruction is held where its access goes, and is made again when the reply comes
  | fetching                                -- its fetch is held, and is made again when the reply comes
  | remote (w : RemoteWait)
  | row (r : RowStep)
  | glean (d : Reg) (op : GleanOp) (ga : Word) (members : List Member) (got : List MemberRead)
  | gst (d : Reg) (left : List Member) (skipped : List Nat)   -- member writes of other devices unanswered, ranks skipped (08 R202)
  | yielding (till : Nat)
  | waiting (w : WaitFor)
  deriving DecidableEq, Repr

/-- A bound context (01 R9, R17, R30 to R32). The general registers stand in its workspace in memory (01 R11). -/
structure Ctx where
  pc : Word
  wp : Word
  home : Word
  rid : Nat                     -- its region's number in the device: the ID, unless another region has taken that (entry 52)
  bind2 : Word
  bind3 : Word
  arg0 : Word
  arg1 : Word
  arg2 : Word
  level : Level
  fcsr : Word
  events : Word
  trappc : Word
  trapinfo : Word
  trapaddr : Word
  tvbase : Word
  asid : BitVec 16
  dtb : Word
  gtb : Word
  st : CtxState
  held : Bool
  iw : Word32                   -- word of the instruction in flight, for a fault its reply brings
  got : List (Nat × List Byte)  -- bytes of other devices that replies have brought to the instruction in flight
  granted : List (Nat × Nat)    -- parts of its write that other devices have agreed to take: address and length (06 R126)
  mark : Option Nat             -- where its core's store path stood when the instruction in flight issued, once that is held (11 R263)
  deriving DecidableEq, Repr

/-- A completion tag and its fault slot (07 R174, R175). -/
structure Tag where
  count : Nat
  fault : Bool
  fr0 : Word
  fr1 : Word
  fr2 : Word
  fr3 : Word
  deriving DecidableEq, Repr

/-- A fault report and decrement that wait for a tag's fault bit (07 R174, 08 R200). `engine` names the engine that holds it. -/
structure Parked where
  engine : Option Nat
  core : Nat
  tag : Nat
  fr0 : Word
  fr1 : Word
  fr2 : Word
  fr3 : Word
  deriving DecidableEq, Repr

/-- The function of a special-function request (06 R147). -/
inductive SfuFn where
  | div
  | sqrt
  | rcp
  | rsq
  | exp2
  | log2
  deriving DecidableEq, Repr

/-- A special-function request (06 R148, R149): its number at the core, who issued it, the generation and workspace at issue, the operands,
and the last s-cycle of its service. -/
structure SfuReq where
  num : Nat
  slot : Nat
  gen : Byte
  wp : Word
  d : Reg
  fn : SfuFn
  prec : Prec
  rm : Nat
  a : Word
  b : Word
  finish : Nat
  deriving DecidableEq, Repr

/-- What an entry of a store path does at its point of coherence (11 R260). -/
inductive PathOp where
  | store (data : List Byte)
  | bits (mask : List Byte) (data : List Byte)
  | lacZero
  | lacAdd (k : LacKind) (x : Word)
  | token (c : Nat)             -- an atomic or a LAC operation of a context at another device, which its reply ends
  deriving DecidableEq, Repr

/-- An entry of a core's store path: physical address with device bits, operation, the issuing region, and its number among the core's entries
(11 R263). -/
structure PathEntry where
  pa : Nat
  op : PathOp
  region : Nat
  num : Nat
  deriving DecidableEq, Repr

/-- A cached translation (13 R304): ASID, virtual page, log2 of its size, frame and rights [6:2] of the leaf. -/
structure TlbEntry where
  asid : BitVec 16
  page : Nat
  size : Nat
  leaf : Word
  deriving DecidableEq, Repr

/-- A swarm core (01 R8 to R12; 06 R129, R148; 07 R175; 11 R260, R261; 13 R304; 14 R331). -/
structure Core where
  lastSlot : Nat
  nextIssue : Nat               -- first s-cycle in which the core may issue again (01 R10)
  issueAt : SMap Nat            -- s-cycle from which a slot may issue again (01 R10)
  tags : SMap Tag
  used : List Nat               -- pool workspaces that are not free, rising (01 R12)
  sfu : List SfuReq
  sfuFree : Nat                 -- last s-cycle of service of the youngest request
  sfuNext : Nat                 -- number of the next request; the model's own field
  path : List PathEntry         -- oldest first
  pathNext : Nat                -- number of the next entry; the model's own field
  l1d : SMap (BitVec 512)       -- line number of local HBM, bytes
  icache : SMap (BitVec 512)    -- physical line number, bytes
  tlb : List TlbEntry
  fetchPage : Option Nat
  deriving DecidableEq, Repr

/-- A register of an MX other than a tile register (01 R34), where an uncorrectable error may stand (13 R317), and a handle register. -/
inductive MxReg where
  | v (n : Nat)
  | p (n : Nat)
  | s (n : Nat)
  | h (n : Nat)
  deriving DecidableEq, Repr

/-- A seal timer (03 R78): header offset, the deadline OWNER holds, shelf and opener; `left` is the saved delay under pre-emption
or freeze. -/
structure Timer where
  hdr : Nat
  deadline : Word32
  unit : MxUnit
  opener : Nat
  left : Option Nat
  deriving DecidableEq, Repr

/-- A lane of the crew task queue (01 R27). -/
structure Lane where
  head : Nat
  tail : Nat
  count : Nat
  deriving DecidableEq, Repr

/-- The cluster's task-queue state (01 R27). The records and links stand in the scratchpad. -/
structure TaskQueue where
  lanes : List Lane
  free : Nat
  qcap : Nat
  deriving DecidableEq, Repr

/-- A handler bind that waits (13 R312). -/
structure HandlerBind where
  slot : Option Nat
  pos : Word
  pc : Word
  info : Word
  addr : Word
  deriving DecidableEq, Repr

/-- A notice or report held by a cluster controller (13 R313): whether its MX holds for it, and when its step is tried again. -/
structure Notice where
  rcd : FaultRecord
  unit : Option MxUnit
  next : Nat
  deriving DecidableEq, Repr

/-- An event counter (15 R359). -/
structure Counter where
  src : Byte
  en : Bool
  rfilt : Bool
  ovf : Bool
  ovfirq : Bool
  region : BitVec 32
  cnt : BitVec 48
  deriving DecidableEq, Repr

/-- Who owns a cluster (01 R21, 12 R284): nobody, a crew by span serial and rank, or a retired crew whose operations drain. `preempted`
keeps the cluster free while USECL counts it (13 R320). -/
inductive Owner where
  | free
  | crew (span : Nat) (rank : Nat)
  | draining (span : Nat) (rank : Nat)
  deriving DecidableEq, Repr

/-- Run state of an MX (01 R21, 10 R233, R256, 13 R313). -/
inductive MxState where
  | off
  | run
  | faulted
  | halted
  deriving DecidableEq, Repr

/-- An accumulator register (01 R34, 10 R237): header bytes, mask, rows of elements, lost mark. -/
structure Acc where
  hdr : BitVec 256
  mask : BitVec 256
  rows : List (List Word32)
  lost : Bool
  deriving DecidableEq, Repr

/-- A weight-buffer slot (10 R238, R255): the header offset of the tile loaded, the tile as stored, header first, and its extent. -/
structure BSlot where
  off : Nat
  hdr : BitVec 256
  cells : List Host.Cell
  extent : Nat
  lost : Bool
  deriving DecidableEq, Repr

/-- A handle register: header offset and cached header (03 R84). -/
structure Handle where
  off : Nat
  hdr : BitVec 256
  deriving DecidableEq, Repr

/-- A register that a pending write lands in, with its value (10 R228, R229). -/
inductive PendReg where
  | v (n : Nat) (mask : BitVec 128) (val : List Word32)
  | p (n : Nat) (mask : BitVec 128) (val : BitVec 128)
  | s (n : Nat) (val : Word32)
  | h (n : Nat) (val : Option Handle)
  | b (n : Nat) (val : Option BSlot)
  deriving DecidableEq, Repr

/-- A pending write and the issued-bundle count at which it lands. -/
structure Pending where
  land : Nat
  reg : PendReg
  deriving DecidableEq, Repr

/-- What an M op writes when it completes (10 R230, R241); `early` are the doublewords of a CSTORE that have performed already. -/
inductive MResult where
  | acc (n : Nat) (val : Acc)
  | slot (n : Nat) (val : BSlot)
  | store (off extent : Nat) (bytes : List Host.Cell) (early : List Nat)
  | nothing
  deriving DecidableEq, Repr

/-- An M op in flight: the registers it reads and writes, the m-cycle of its end, its result, and whether it met an uncorrectable
error (10 R230, R233). -/
structure MFlight where
  reads : List TileReg
  writes : List TileReg
  fin : Nat
  result : MResult
  lost : Bool
  line : Nat
  bundle : Nat
  head : Nat
  deriving DecidableEq, Repr

/-- Who asked for a seal (03 R77, 10 R235): a context's SEAL, a timer with its opener, or the other MX by GIVE. -/
inductive SealBy where
  | context (c : Nat)
  | timer (opener : Nat)
  | unit (u : MxUnit)
  deriving DecidableEq, Repr

/-- A request in a shelf's pending queue, and the s-cycle in which it reached it (12 R291). -/
structure SealReq where
  hdr : Nat
  who : SealBy
  since : Nat
  deriving DecidableEq, Repr

/-- A matrix unit (01 R34; 03 R77; 10 R226 to R233). Registers not listed hold their value at launch. -/
structure Mx where
  st : MxState
  line : Nat
  bundle : Nat
  store : SMap (BitVec 512)
  badLines : List Nat           -- lines of the bundle store with an uncorrectable error (13 R317)
  badRegs : List MxReg          -- registers with an uncorrectable error (13 R317)
  count : Nat
  c : SMap Acc
  b : SMap BSlot
  h : SMap Handle
  v : SMap (List Word32)
  p : SMap (BitVec 128)
  s : SMap Word32
  flight : List MFlight
  pend : List Pending
  arrayFree : Nat
  sldFree : Nat
  nextM : Nat                   -- first m-cycle at which the next bundle may issue (10 R226)
  shelf : List Nat
  queue : List SealReq
  giving : Option Bool          -- GIVE of the bundle at MXPC: requested (false), served (true)
  stopping : Bool               -- MXHALT accepted (13 R314)
  deriving DecidableEq, Repr

/-- A cluster (01 R19, R27; 03 R74, R78; 12 R284, R286; 13 R304, R312 to R315; 15 R359). -/
structure Cluster where
  owner : Owner
  fenced : Bool
  guards : SMap (BitVec 2)
  timers : List Timer
  tq : TaskQueue
  ctxlim : Nat
  binder : Nat
  bindAt : Nat                  -- first s-cycle of the binder's next bind or dispatch (12 R286)
  refusedAt : SMap Nat          -- earliest retry of a lane's refused entry on a full fault queue (12 R286)
  handlers : List HandlerBind
  frozen : Bool
  notices : List Notice
  counters : SMap Counter
  tlb : List TlbEntry
  mx0 : Mx
  mx1 : Mx
  deriving DecidableEq, Repr

/-- A copy command (07 R171 to R173, 12 R295): the record's snapshot and address, tag, issuing core, region, span and level, and the
next element once begun; `stopped` is a stop that has not been reported. -/
structure CopyCmd where
  words : List Word
  addr : Word
  core : Nat
  tag : Nat
  region : Nat
  span : Nat
  supervisor : Bool
  asid : BitVec 16                 -- ASID register of the issuing context (13 R304)
  begun : Bool
  next : Nat
  fresh : Nat                   -- the copy's place among free values (07 R173)
  overlaps : Bool               -- the destination may overlap the source (07 R173)
  image : SMap Byte             -- bytes that this copy has overwritten, as they were before it
  lines : List (Nat × Nat × Nat)   -- registered run (11 R275): virtual line, physical line of local HBM, number of lines
  asked : Option Nat               -- part of an element away from this device whose reply is outstanding (14 R333)
  got : List (Nat × List Byte)     -- source bytes that replies have brought to the element
  granted : List (Nat × Nat)       -- parts of its destination that other devices have agreed to take: address and length (07 R173)
  deriving DecidableEq, Repr

/-- A posted element write that its target has not acknowledged (14 R333, R338): the copy, the physical address with device bits, and
the number of bytes. -/
structure Posted where
  copy : Nat
  pa : Nat
  len : Nat
  deriving DecidableEq, Repr

/-- A copy that has ended or stopped and whose writes are not all acknowledged (11 R276): its number, its core and tag, and the report of
a stop. -/
structure Ending where
  copy : Nat
  core : Nat
  tag : Nat
  report : Option (Word × Word × Word × Word)
  deriving DecidableEq, Repr

/-- A copy engine (12 R294 to R296). -/
structure Engine where
  queue : List CopyCmd
  posted : List Posted
  ending : List Ending
  latest : Option (Nat × Nat × Nat)   -- s-cycle, core and issue of the latest XCP that it accepted (12 R294)
  last : Nat
  credits : SMap Nat
  round : Nat                   -- quanta left in the round
  tlb : List TlbEntry
  deriving DecidableEq, Repr

/-- A crew of a placed span: its cluster and whether it has retired. -/
structure Crew where
  cluster : Nat
  retired : Bool
  deriving DecidableEq, Repr

/-- A placed span (01 R20, R21; 07 R179; 08 R194). -/
structure Span where
  serial : Nat
  region : Nat
  crews : List Crew
  grid : Option (Nat × Nat × Nat × Nat × Nat)   -- NDIM, ORDER, E0, E1, E2
  grant : Nat
  phase : Word
  arrived : Nat
  done : Word
  records : Nat
  ended : Bool                  -- retired, with its store made; kept while a cluster of it drains
  deriving DecidableEq, Repr

/-- STATE of a region (01 R22). -/
inductive RegionState where
  | inactive
  | active
  | preempted
  | halted
  deriving DecidableEq, Repr

/-- A region the device knows: its RCB's address and fields as last read (01 R22 to R24). -/
structure Region where
  rcb : Nat
  id : Nat
  state : RegionState
  prio : Nat
  ovr : BitVec 16
  parent : Option Nat           -- local address of the parent's RCB; none is the root. One on another device is no local address
  maxcl : Nat
  maxctx : Nat
  ceshare : Nat
  hbmq : Nat
  asid : BitVec 16
  ptroot : Nat
  fqh : Word
  hndl : Word
  gtb : Word
  dtb : Word
  lqh : Word
  usecl : Nat
  usectx : Nat
  usehbm : Nat
  budget : Bool                 -- its head launch waits on the budget (12 R283)
  deriving DecidableEq, Repr

/-- Who asks at a home slice for a line (11 R275; 12 R298): a context, the oldest entry for it of a core's store path, a copy engine, which no slice
holds, the coordinator's writes to RCBs, the oldest waiting store of a port or of the service core (14 R336), or a row of the table that stands for
another agent or for an access from outside. -/
inductive Waiter where
  | ctx (c : Nat)
  | path (core : Nat)
  | engine
  | writes
  | storer (st : Storer)
  | row (i : Instr)
  deriving DecidableEq, Repr

/-- A WDQ query (07 R180, 12 R292, R293): issuing context, span, rank, tag, the slot's physical address, arrival at the coordinator, and whether
it has left its die's distributor. -/
structure Query where
  ctx : Nat
  span : Nat
  rank : Nat
  tag : Nat
  slot : Nat
  arrive : Nat
  sent : Bool
  sup : Bool                    -- whether a supervisor context asked (13 R315)
  deriving DecidableEq, Repr

/-- A deferred LDF or GWAIT (07 R187, 08 R204, 12 R298): the context and what it waits for. -/
structure Deferral where
  ctx : Nat
  pa : Nat
  deriving DecidableEq, Repr

/-- A GLDM between issue and result (08 R200). -/
structure Gldm where
  ctx : Nat
  region : Nat
  span : Nat
  op : GleanOp
  ga : Word
  members : List Member
  got : List MemberRead
  cluster : Nat
  dest : Nat
  tag : Nat
  sup : Bool                    -- whether a supervisor context issued it (13 R315)
  deriving DecidableEq, Repr

/-- A region command queued at REGCMD (15 R351): command, RCB address, must-be-zero bits found set, and the snapshot of REGIMG. -/
structure RegCmd where
  cmd : Nat
  rcb : Nat
  bad : Bool
  image : Nat
  deriving DecidableEq, Repr

/-- A cluster saved by pre-emption (13 R319, R320): what the image's control and MX blocks hold, as data. Scratchpad and core stores stand in the
image area. DESIGN CHOICE (entry 25); unsafe. -/
structure SavedCluster where
  index : Nat
  base : Nat                    -- where its image stands
  cl : Cluster
  ctxs : SMap Ctx
  cores : List Core
  parked : List Parked          -- reports parked for its tags
  events : SMap Word            -- event bits sent since (08 R205)
  deriving DecidableEq, Repr

/-- A pre-emption accepted and not finished (13 R318): region, image area, and whether its clusters have the event (13 R319). -/
structure PreemptJob where
  region : Nat
  image : Nat
  started : Bool
  deriving DecidableEq, Repr

/-- A saved subtree (13 R320): the region named, its image area, the regions saved, and their clusters. -/
structure SavedImage where
  region : Nat
  image : Nat
  regions : List Nat
  clusters : List SavedCluster
  deriving DecidableEq, Repr

/-- A slot of the queue window (14 R340). -/
structure Window where
  qhandle : Word
  code : Byte
  seq : BitVec 16
  region : BitVec 32
  entry : List Word
  deriving DecidableEq, Repr

/-- A mailbox (15 R356). -/
structure Mailbox where
  mstat : Byte
  mseq : BitVec 16
  rlen : BitVec 16
  data : SMap Byte
  pending : Option (Nat × Nat × Storer)   -- command, MLEN and storer of a doorbell whose command has not been completed
  deriving DecidableEq, Repr

/-- The fabric error log (14 R342). -/
structure FabricLog where
  count : Nat
  source : Nat
  cause : Nat
  device : Nat
  valid : Bool
  addr : Nat
  deriving DecidableEq, Repr

/-- A device error record (15 R353). -/
structure DevRecord where
  cause : Nat
  source : Nat
  addr : Word
  region : Nat
  cycle : Word
  deriving DecidableEq, Repr

/-- The registers of the control block, the mailboxes, telemetry and the die counters (15 R346 to R361). -/
structure Control where
  stage : Nat
  trained : Bool
  fwerr : Bool
  owner : Nat
  devid : Nat
  stepping : Word32
  featOffer : Word
  featReq : Word
  featGrant : Word
  dieGroups : List Word32
  regcmd : List RegCmd
  imgA : Word
  imgB : Word
  imgS : Word
  result : Nat
  seq : BitVec 16
  irqstat : BitVec 6
  irqA : BitVec 6
  irqB : BitVec 6
  irqS : BitVec 6
  log : SMap DevRecord          -- place in the ring, record
  logHead : Word
  logTail : Word
  lost : Nat
  boxA : Mailbox
  boxB : Mailbox
  msixA : List Nat              -- vectors raised at each port, oldest first (15 R346, R353)
  msixB : List Nat
  semStore : Option (Nat × Nat) -- s-cycle and place (port A, port B, service core) of the latest store to DEVSEM (15 R347)
  rollback : Nat                -- the fused rollback counter (15 R358)
  romOk : Option Bool           -- what the ROM found of the firmware that runs (15 R344), once it has checked it
  staging : List Byte
  committed : Option (List Byte)   -- image that FWCOMMIT has made the next one to run (15 R358)
  running : Option (List Byte)  -- image that runs since the last reset; none is the one the part was made with
  boots : Nat
  counters : SMap Counter       -- 16 per die, key 16 * die + n
  telemetry : Telemetry
  throttle : BitVec 6
  coolFor : Nat                 -- ms below 95 % of POWERCAP
  powercap : BitVec 12
  deriving DecidableEq, Repr

/-- A ring entry, or a part of one, that an agent other than a core's instruction writes at another device or at the host (07 R183; 14 R333):
who writes it, its virtual address, the physical address with device bits, the number of bytes, and its answer, once it has come. -/
structure RingWrite where
  who : Option Waiter
  va : Word
  pa : Nat
  len : Nat
  answer : Option Reply
  deriving DecidableEq, Repr

/-- A part of a write that another device has tested and will make, or give up: its device, local address and length (03 R76; 06 R126). -/
structure Promise where
  dev : Nat
  addr : Nat
  len : Nat
  deriving DecidableEq, Repr

/-- A doorbell of the queue window whose step is under way (14 R341): its storer, the slot, the word stored, the step's snapshot of QHANDLE, REGION
and ENTRY, and the writes of the same port that its release waits for. -/
structure Bell where
  who : Storer
  slot : Nat
  v : Word
  qhandle : Word
  region : BitVec 32
  entry : List Word
  after : List (Waiter × Nat)
  deriving DecidableEq, Repr

/-- A posted write of the host or of the service core that waits behind an earlier one of the same port (14 R336): to a register, through BAR 2, or to
a queue pair's doorbell. -/
inductive PostWhat where
  | reg (a : Nat) (v : Word)
  | bar2 (addr : Nat) (data : List Byte)
  | work (qp : Nat) (v : Word)
  deriving DecidableEq, Repr

/-- The links (14 R331 to R342). -/
structure Links where
  fetchBuf : List (SMap (BitVec 512))   -- line buffers of the four fetch agents
  routes : SMap (BitVec 16)     -- valid entries of the DXL route table
  windows : SMap Window
  fabric : FabricLog
  hostCache : SMap (BitVec 512)
  hostHolds : List Nat          -- HBM lines the host may hold
  snoops : List Nat             -- lines whose back-invalidate is unanswered
  dxlIn : List DxlRequest
  lostDevs : List Nat
  qpError : List Nat
  works : List (Nat × Word)
  sends : List (Nat × List Byte)
  sent : List DxlRequest        -- the requests made to other devices and to the host, oldest first
  rings : List RingWrite        -- writes of ring entries whose steps are not complete
  promises : List Promise       -- writes of other devices that have passed their tests here and are not made yet
  bells : List Bell             -- doorbells whose steps are under way, in order of arrival
  posts : List (Storer × PostWhat)   -- posted writes that wait, those of one port in order
  deriving DecidableEq, Repr

/-- What the part last answered to the host, to another device or to an Ethernet peer. -/
inductive HostAnswer where
  | nothing
  | done
  | unsupported
  | data (bytes : List Byte)
  | fault (code detail off : Nat)
  | remoteError
  deriving DecidableEq, Repr

/-- The coordinator (12 R281 to R285, R292, R293; 08 R194; 13 R318 to R321). -/
structure Coordinator where
  nextSerial : Nat              -- spans placed so far; a span's serial is its number modulo 2^24 (01 R20)
  spans : List Span
  regions : SMap Region
  chosen : SMap Nat             -- region last chosen at each priority
  reserving : List (Nat × Nat)  -- regions with a reserving launch or resume, and their priorities (12 R283)
  retest : List Nat             -- those of them that have not been tested since a cluster returned
  launchRetry : SMap (FaultInfo × Nat × List Byte)   -- regions whose rejected launch waits on a full fault queue: its fault, when to retry, and the entry
  queries : List Query
  deferred0 : List Deferral     -- GWAITs of group 0
  preempts : List PreemptJob
  images : List SavedImage
  resumes : List (Nat × Nat)
  writes : List (Nat × List Byte)   -- writes to RCBs that wait for their lines, oldest first (01 R22; 14 R337)
  handling : Option Nat         -- region whose head launch has been selected and is not handled yet (12 R282)
  grants : Nat × Nat            -- an s-cycle and the WDQ grants made in it (12 R293)
  deriving DecidableEq, Repr

/-- One entry of the schedule: who acts in the next step. It stands for the arbiters' freedom and for the outside world.
DESIGN CHOICE (entry 3); safe. -/
inductive Turn where
  | core (n : Nat)                        -- core n issues, by the barrel (01 R10)
  | op (i : Instr)                        -- an event, a command or an outside action of the table
  | elapse (n : Nat)                      -- n s-cycles pass
  | dieStart (d : Nat)                    -- a die leaves reset, some time after the package's clock has started (01 R30)
  | softError (granule : Nat)             -- an uncorrectable error strikes an 8-byte granule (13 R317)
  | softErrorLine (k : Nat) (u : MxUnit) (line : Nat)   -- one strikes a line of a bundle store
  | softErrorReg (k : Nat) (u : MxUnit) (t : TileReg)   -- one strikes an accumulator or a weight-buffer slot
  | softErrorMx (k : Nat) (u : MxUnit) (r : MxReg)      -- one strikes another register of an MX
  | evictL1d (core line : Nat)            -- replacement (11 R261)
  | evictICache (core line : Nat)
  | evictTlb (core n : Nat)               -- an entry leaves a TLB, replaced or with a parity error (13 R304, R317)
  | evictClusterTlb (k n : Nat)
  | evictEngineTlb (e n : Nat)
  | evictFetch (die line : Nat)
  | evictHost (line : Nat)                -- a line leaves the host-line cache (14 R338)
  | counted (d : Nat) (k : Option Nat) (src n region : Nat)   -- n events of a source of a die or of a cluster that no step shows: an error
                                          -- corrected, a line between HBM and the Stacks, a wait at the crossbar (13 R317; 15 R360)
  | chargeHbm (region pages : Nat)        -- HBM pages are charged to a region (01 R23)
  | dropHbm (region pages : Nat)          -- or given back
  | spill (pa : Nat)                      -- a queue descriptor leaves the directory (07 R182)
  | storer (st : Storer)                  -- the oldest waiting write of a port or of the service core is tried again (14 R336)
  | redefer (c : Nat)                     -- a saved wait that a home slice held is made again there (13 R321)
  | gleanRead (c rank : Nat)              -- one member read of a glean in flight (08 R201)
  | gldmRead (n rank : Nat)
  | cstoreBeat (k : Nat) (u : MxUnit) (n : Nat)   -- one doubleword of a CSTORE in flight (10 R241)
  deriving DecidableEq, Repr

/-- A bundle's ops run twice: all checks, then all effects (10 R226); `alone` is one op by itself. -/
inductive Phase where
  | check
  | perform
  | alone
  deriving DecidableEq, Repr

/-- The agent whose step runs. -/
inductive Actor where
  | device
  | context (c : Nat) (word : Word32)
  | mx (k : Nat) (u : MxUnit) (ph : Phase) (head : Nat)
  deriving DecidableEq, Repr

/-- The whole part. -/
structure State where
  now : Nat                     -- package clock in s-cycles
  cycle : List Word             -- CYCLE of each die (01 R30)
  mem : List Host.Cell          -- HBM, scratchpads and core stores by local physical address (01 R36)
  bad : List Nat                -- granules with an uncorrectable error, rising (13 R317)
  ctxs : SMap Ctx               -- bound contexts by CTXID; an unlisted slot is IDLE
  cores : SMap Core
  clusters : SMap Cluster
  engines : SMap Engine
  parked : List Parked          -- in stop order
  waits : List (Waiter × Nat)   -- requests held at home slices, with their lines, in order of arrival (12 R298)
  walks : List (Waiter × Nat)   -- walks that requests still being made have started, by page (15 R360); the model's own field
  deferrals : List Deferral     -- deferral buffers of the slices, oldest first
  spilled : List Nat            -- queue descriptors out of the directory
  gldms : List Gldm
  co : Coordinator
  ctl : Control
  io : Links
  hostOut : HostAnswer
  freeUse : Nat
  turns : List Turn             -- the schedule; the model's own field (entry 3)
  auto : Nat                    -- place in the round of agents when the schedule is empty; the model's own field (entry 3)
  actor : Actor                 -- who acts in this step; the model's own field (entry 3)
  row : Option (Waiter × Bool)  -- the row of the table that acts in this step, for its place at home slices, and whether a slice holds it; the
                                -- model's own field (entry 12)
  beat : Nat                    -- how far the s-cycle has come in the order of entry 3; the model's own field
  deriving DecidableEq, Repr

/-- Reasons for which a step has no next state. -/
inductive Fault where
  /-- A swarm instruction is run while no bound context acts: `exec` raises it; `step` never does, since it fetches only for a
  bound context. Safe. -/
  | noContext
  /-- An MX op is run while no MX acts: `exec` raises it; `step` never does. Safe. -/
  | noUnit
  deriving DecidableEq, Repr

/-- Reasons to refuse an instruction. -/
inductive Refusal where
  /-- `exec` raises it for an instruction without a meaning in this model. Safe. -/
  | notModelled (mnemonic : String)
  deriving DecidableEq, Repr

/-- A tag nothing has been counted on (07 R175). -/
def Tag.zero : Tag := ⟨0, false, 0, 0, 0, 0⟩

/-- A core after reset and after placement (01 R10). -/
def Core.fresh : Core := ⟨63, 0, [], [], [], [], 0, 0, [], 0, [], [], [], none⟩

/-- An MX before a launch (01 R34). -/
def Mx.fresh : Mx := ⟨.off, 0, 0, [], [], [], 0, [], [], [], [], [], [], [], [], 0, 0, 0, [], [], none, false⟩

/-- A counter after reset (15 R359). -/
def Counter.zero : Counter := ⟨0, false, false, false, false, 0, 0⟩

/-- A task queue before placement. -/
def TaskQueue.none : TaskQueue := ⟨List.replicate 8 ⟨0, 0, 0⟩, 0, 0⟩

/-- A free cluster. -/
def Cluster.fresh : Cluster := ⟨.free, false, [], [], TaskQueue.none, 0, 3, 0, [], [], false, [], [], [], Mx.fresh, Mx.fresh⟩

/-- An engine after reset: it has served no region (12 R295). -/
def Engine.fresh : Engine := ⟨[], [], [], none, 0xFFFFFFFF, [], 0, []⟩

/-- A window slot after reset (14 R340). -/
def Window.zero : Window := ⟨0, 0, 0, 0, List.replicate 8 0⟩

/-- A mailbox after reset (15 R356). -/
def Mailbox.zero : Mailbox := ⟨0, 0, 0, [], none⟩

/-- No drop recorded (14 R342). -/
def FabricLog.zero : FabricLog := ⟨0, 0, 0, 0, false, 0⟩

/-- Telemetry after reset: DESIGN CHOICE, zero (entry 6). Unsafe. -/
def Telemetry.zero : Telemetry := ⟨0, List.replicate 5 0, List.replicate 5 0, List.replicate 12 0⟩

/-- The control block after power-good (15 R344, R346). The fused words are DESIGN CHOICE (entry 2). Unsafe. -/
def Control.reset : Control where
  stage := 0
  trained := false
  fwerr := false
  owner := 0
  devid := 0
  stepping := 0x0A370101
  featOffer := 0x0000000F000000FF
  featReq := 0
  featGrant := 0
  dieGroups := List.replicate 4 0xFF
  regcmd := []
  imgA := 0
  imgB := 0
  imgS := 0
  result := 0
  seq := 0
  irqstat := 0
  irqA := 0
  irqB := 0
  irqS := 0
  log := []
  logHead := 0
  logTail := 0
  lost := 0
  boxA := Mailbox.zero
  boxB := Mailbox.zero
  msixA := []
  msixB := []
  semStore := none
  rollback := 0
  romOk := none
  staging := []
  committed := none
  running := none
  boots := 0
  counters := []
  telemetry := Telemetry.zero
  throttle := 0
  coolFor := 0
  powercap := 3400

/-- The links after reset (14). -/
def Links.reset : Links := ⟨List.replicate 4 [], [], [], FabricLog.zero, [], [], [], [], [], [], [], [], [], [], [], [], []⟩

/-- The coordinator after reset (12). -/
def Coordinator.reset : Coordinator := ⟨0, [], [], [], [], [], [], [], [], [], [], [], [], none, (0, 0)⟩

/-- The part right after power-good (15 R344): stage 0, nothing placed, no context bound. -/
def State.reset : State where
  now := 0
  cycle := List.replicate 4 0
  mem := []
  bad := []
  ctxs := []
  cores := []
  clusters := []
  engines := []
  parked := []
  waits := []
  walks := []
  deferrals := []
  spilled := []
  gldms := []
  co := Coordinator.reset
  ctl := Control.reset
  io := Links.reset
  hostOut := .nothing
  freeUse := 0
  turns := []
  auto := 0
  actor := .device
  row := none
  beat := 0

end Sys2Proof.Machine
end

