-- ==== Sys2Proof/Machine/Mem.lean ====
section
/-! DEFINITION. Memory as a list of cells in one form: addresses strictly rising, no cell equal to what an unlisted address reads
as. -/
namespace Sys2Proof.Machine

/-- What a byte that nothing has written reads as: DESIGN CHOICE, zero (entry 1). Unsafe. -/
def memAbsent : Byte := 0

/-- The cells from an address on. -/
def memFrom : List Host.Cell → Nat → List Host.Cell
  | [], _ => []
  | (j, v) :: m, a => if j < a then memFrom m a else (j, v) :: m

/-- The cells below an address. -/
def memBelow : List Host.Cell → Nat → List Host.Cell
  | [], _ => []
  | (j, v) :: m, a => if j < a then (j, v) :: memBelow m a else []

/-- n bytes from an address on, of cells that begin no lower than it. -/
def memTake : List Host.Cell → Nat → Nat → List Byte
  | _, _, 0 => []
  | [], a, n + 1 => memAbsent :: memTake [] (a + 1) n
  | (j, v) :: m, a, n + 1 => if j = a then v :: memTake m (a + 1) n else memAbsent :: memTake ((j, v) :: m) (a + 1) n

/-- The cells of bytes at an address, in the canonical form. -/
def memCells : Nat → List Byte → List Host.Cell
  | _, [] => []
  | a, b :: l => if b = memAbsent then memCells (a + 1) l else (a, b) :: memCells (a + 1) l

/-- Read n bytes. -/
def memRead (m : List Host.Cell) (a n : Nat) : List Byte := memTake (memFrom m a) a n

/-- Read one byte. -/
def memByte (m : List Host.Cell) (a : Nat) : Byte :=
  match memFrom m a with
  | (j, v) :: _ => if j = a then v else memAbsent
  | [] => memAbsent

/-- Write bytes. -/
def memWrite (m : List Host.Cell) (a : Nat) (bs : List Byte) : List Host.Cell :=
  memBelow m a ++ memCells a bs ++ memFrom m (a + bs.length)

/-- The cells of a range of n bytes. -/
def memSlice (m : List Host.Cell) (a n : Nat) : List Host.Cell := memBelow (memFrom m a) (a + n)

/-- Copy a range of n bytes from one address to another, without overlap. -/
def memMove (m : List Host.Cell) (src dst n : Nat) : List Host.Cell :=
  let moved := (memSlice m src n).map (fun c => (c.1 - src + dst, c.2))
  memBelow m dst ++ moved ++ memFrom m (dst + n)

/-- The canonical form: addresses strictly rising, no cell at its default. -/
def memWf : List Host.Cell → Bool
  | [] => true
  | (a, b) :: m => b != memAbsent && m.all (fun c => a < c.1) && memWf m

/-- The number that n bytes at an address hold. -/
def memNat (m : List Host.Cell) (a n : Nat) : Nat := leNat (memRead m a n)

/-- Whether some granule that the n bytes touch has an uncorrectable error (13 R317). -/
def badIn (bad : List Nat) (a n : Nat) : Bool := n != 0 && bad.any (fun g => a / 8 ≤ g && g ≤ (a + n - 1) / 8)

/-- The first granule with an uncorrectable error that a write of n bytes touches and does not replace whole. -/
def badPartial (bad : List Nat) (a n : Nat) : Option Nat :=
  bad.find? (fun g => a < 8 * g + 8 && 8 * g < a + n && !(a ≤ 8 * g && 8 * g + 8 ≤ a + n))

/-- The marks left after a write of n bytes: a granule written whole is restored. -/
def badAfter (bad : List Nat) (a n : Nat) : List Nat := bad.filter (fun g => !(a ≤ 8 * g && 8 * g + 8 ≤ a + n))

/-- A write to physical memory of this device. -/
def State.poke (s : State) (a : Nat) (bs : List Byte) : State :=
  { s with mem := memWrite s.mem a bs, bad := badAfter s.bad a bs.length }

/-- The number that n bytes of physical memory hold. -/
def State.peek (s : State) (a n : Nat) : Nat := memNat s.mem a n

/-- A doubleword of physical memory. -/
def State.peek64 (s : State) (a : Nat) : Word := word (s.peek a 8)

/-- A doubleword written. -/
def State.poke64 (s : State) (a : Nat) (v : Word) : State := s.poke a (leBytes 8 v.toNat)

end Sys2Proof.Machine
end

