-- ==== Sys2Proof/Machine/Access.lean ====
section
/-! DEFINITION. The one home of every numbered thing of State: contexts, registers, cores, clusters, matrix units, engines, tags,
spans and regions, each with its reader and its writer. -/
namespace Sys2Proof.Machine

/-- The context bound in a slot (01 R9). -/
def State.ctx? (s : State) (c : Nat) : Option Ctx := s.ctxs.find? c
/-- A slot's context written. -/
def State.setCtx (s : State) (c : Nat) (x : Ctx) : State := { s with ctxs := s.ctxs.insert c x }
/-- A slot made IDLE. -/
def State.dropCtx (s : State) (c : Nat) : State := { s with ctxs := s.ctxs.erase c }
/-- Core, slot, cluster and die of a context (01 R8, 00 R3). -/
def coreOf (c : Nat) : Nat := c / 64
/-- Slot of a context. -/
def slotOf (c : Nat) : Nat := c % 64
/-- Cluster of a context. -/
def clusterOf (c : Nat) : Nat := c / 256
/-- Die of a cluster. -/
def dieOfCluster (k : Nat) : Nat := k / 64
/-- A core. -/
def State.core (s : State) (n : Nat) : Core := s.cores.getD n Core.fresh
/-- A core written. -/
def State.setCore (s : State) (n : Nat) (x : Core) : State := { s with cores := s.cores.insert n x }
/-- A cluster. -/
def State.cluster (s : State) (k : Nat) : Cluster := s.clusters.getD k Cluster.fresh
/-- A cluster written. -/
def State.setCluster (s : State) (k : Nat) (x : Cluster) : State := { s with clusters := s.clusters.insert k x }
/-- A matrix unit of a cluster. -/
def Cluster.mx (cl : Cluster) (u : MxUnit) : Mx := match u with | .mx0 => cl.mx0 | .mx1 => cl.mx1
/-- A matrix unit written. -/
def Cluster.setMx (cl : Cluster) (u : MxUnit) (m : Mx) : Cluster :=
  match u with
  | .mx0 => { cl with mx0 := m }
  | .mx1 => { cl with mx1 := m }
/-- A matrix unit of the part. -/
def State.mx (s : State) (k : Nat) (u : MxUnit) : Mx := (s.cluster k).mx u
/-- It written. -/
def State.setMx (s : State) (k : Nat) (u : MxUnit) (m : Mx) : State := s.setCluster k ((s.cluster k).setMx u m)
/-- The other unit of a cluster. -/
def MxUnit.other : MxUnit → MxUnit
  | .mx0 => .mx1
  | .mx1 => .mx0
/-- The unit's number. -/
def MxUnit.toNat : MxUnit → Nat
  | .mx0 => 0
  | .mx1 => 1
/-- The unit of a number. -/
def MxUnit.ofNat (n : Nat) : MxUnit := if n = 0 then .mx0 else .mx1
/-- An engine. -/
def State.engine (s : State) (n : Nat) : Engine := s.engines.getD n Engine.fresh
/-- An engine written. -/
def State.setEngine (s : State) (n : Nat) (x : Engine) : State := { s with engines := s.engines.insert n x }
/-- A completion tag of a core (07 R175). -/
def State.tag (s : State) (n t : Nat) : Tag := (s.core n).tags.getD t Tag.zero
/-- A tag written. -/
def State.setTag (s : State) (n t : Nat) (x : Tag) : State :=
  s.setCore n { s.core n with tags := (s.core n).tags.put t x Tag.zero }
/-- The tag word (07 R175). -/
def Tag.packed (t : Tag) : Word := word (t.count + if t.fault then 4096 else 0)

/-- Register numbers as indexes. Reads of w0 give zero (01 R11). -/
def State.reg (s : State) (x : Ctx) (r : Reg) : Word := if r = 0 then 0 else s.peek64 (x.wp.toNat + 8 * r.toNat)
/-- A register written; a write to w0 is discarded (01 R11). -/
def State.setReg (s : State) (x : Ctx) (r : Reg) (v : Word) : State :=
  if r = 0 then s else s.poke64 (x.wp.toNat + 8 * r.toNat) v
/-- The continuation word dw0 of the context's workspace (01 R11). -/
def State.contWord (s : State) (x : Ctx) : Word := s.peek64 x.wp.toNat
/-- A workspace address of a core (01 R11). -/
def wsAddr (core off : Nat) : Nat := Config.storeBase + core * Config.storeSize + off
/-- The region in which a context is bound (01 R14, R17). -/
def Ctx.region (x : Ctx) : Nat := x.rid

/-- A region the device knows. -/
def State.region? (s : State) (id : Nat) : Option Region := s.co.regions.find? id
/-- A region written. -/
def State.setRegion (s : State) (r : Region) : State := { s with co := { s.co with regions := s.co.regions.insert r.id r } }
/-- The parent of a region, by its RCB address (01 R22). -/
def parentOf (rs : SMap Region) (r : Region) : Option Region :=
  r.parent.bind (fun p => (List.find? (fun e => e.2.rcb == p) rs).map (·.2))
/-- A region and its ancestors, nearest first; a tree has at most 8 levels (01 R23). -/
def pathFrom (rs : SMap Region) : Nat → Region → List Region
  | 0, _ => []
  | n + 1, r => r :: (match parentOf rs r with | some p => pathFrom rs n p | none => [])
/-- The path to the root. -/
def State.path (s : State) (r : Region) : List Region := pathFrom s.co.regions 8 r
/-- The region whose own field `i` a region takes: the first on its path with the OVR bit, or the root (01 R23). -/
def ownerOf (i : Nat) : List Region → Option Region
  | [] => none
  | [r] => some r
  | r :: q :: l => if r.ovr.getLsbD i then some r else ownerOf i (q :: l)
/-- An effective field (01 R23). -/
def State.eff {α : Type} (s : State) (r : Region) (i : Nat) (f : Region → α) : α := f ((ownerOf i (s.path r)).getD r)
/-- Effective priority along a path (01 R23). -/
def prioOf : List Region → Nat
  | [] => 0
  | [r] => r.prio
  | r :: q :: l => if r.ovr.getLsbD 0 then Nat.min r.prio (prioOf (q :: l)) else prioOf (q :: l)
/-- Effective priority of a region. -/
def State.effPrio (s : State) (r : Region) : Nat := prioOf (s.path r)
/-- An effective field of a region by number, or a default for one the device does not know. -/
def State.effOf {α : Type} (s : State) (id i : Nat) (f : Region → α) (dflt : α) : α :=
  match s.region? id with
  | some r => s.eff r i f
  | none => dflt

/-- A placed span by serial. -/
def State.span? (s : State) (n : Nat) : Option Span := s.co.spans.find? (fun p => p.serial == n)
/-- A span written. -/
def State.setSpan (s : State) (p : Span) : State :=
  { s with co := { s.co with spans := s.co.spans.map (fun q => if q.serial == p.serial then p else q) } }
/-- Span and rank of the crew that holds a cluster (01 R21). -/
def State.crew? (s : State) (k : Nat) : Option (Nat × Nat) :=
  match (s.cluster k).owner with
  | .crew n r => some (n, r)
  | _ => none
/-- Region of the crew that holds a cluster. -/
def State.crewRegion? (s : State) (k : Nat) : Option Nat :=
  match s.crew? k with
  | some (n, _) => (s.span? n).map (·.region)
  | none => none
/-- Size of a span. -/
def State.spanSize (s : State) (n : Nat) : Nat := ((s.span? n).map (·.crews.length)).getD 0

/-- CYCLE of a die (01 R30). -/
def State.cycleOf (s : State) (die : Nat) : Word := s.cycle.getD die 0
/-- The m-cycle now (00 R4). -/
def State.mnow (s : State) : Nat := s.now / 2
/-- FEAT of a die (15 R350). -/
def State.feat (s : State) (die : Nat) : Word :=
  (s.ctl.featGrant.extractLsb' 0 32 &&& s.ctl.dieGroups.getD die 0).setWidth 64
/-- A service bit of FEATGRANT (15 R349). -/
def State.service (s : State) (i : Nat) : Bool := s.ctl.featGrant.getLsbD i

/-- The causes that come to stand and be enabled: the vectors to raise (15 R346). -/
def newVectors (old new : BitVec 6) : List Nat := (List.range 6).filter (fun i => new.getLsbD i && !old.getLsbD i)

/-- IRQSTAT and the ports' banks of IRQMASK written: each port's MSI-X vector is raised for a cause that comes to stand while it is
enabled, or to be enabled while it stands (15 R346, R353). DEDUCED (entry 61); unsafe. -/
def Control.irqs (c : Control) (st ma mb : BitVec 6) : Control :=
  { c with irqstat := st, irqA := ma, irqB := mb,
           msixA := c.msixA ++ newVectors (c.irqstat &&& c.irqA) (st &&& ma),
           msixB := c.msixB ++ newVectors (c.irqstat &&& c.irqB) (st &&& mb) }

/-- Interrupt causes set (15 R353). -/
def Control.raise (c : Control) (causes : BitVec 6) : Control := c.irqs (c.irqstat ||| causes) c.irqA c.irqB

/-- A physical address of this device: its device ID with a local address (01 R36). -/
def State.phys (s : State) (a : Nat) : Nat := s.ctl.devid * Config.localEnd + a

/-- A device error record at TAIL; a full ring counts a loss (15 R353). -/
def State.logDevice (s : State) (cause source : Nat) (addr : Word) (region : Nat) : State :=
  let t := s.ctl
  if (t.logTail - t.logHead).toNat = 64 then { s with ctl := { t with lost := Nat.min (t.lost + 1) 0xFFFF } }
  else
    { s with ctl := Control.raise { t with log := t.log.insert (t.logTail.toNat % 64) ⟨cause, source, addr, region % 2 ^ 32, s.cycleOf 0⟩,
                                           logTail := t.logTail + 1 } 2 }

/-- A dropped write recorded in the fabric error log (14 R342). -/
def State.logFabric (s : State) (source cause dev addr : Nat) : State :=
  let f := s.io.fabric
  let first := !f.valid
  let f' : FabricLog :=
    if first then ⟨Nat.min (f.count + 1) 0xFFFF, source, cause, dev, true, addr⟩
    else { f with count := Nat.min (f.count + 1) 0xFFFF }
  let s' := { s with io := { s.io with fabric := f' } }
  if first then { s' with ctl := s'.ctl.raise 1 } else s'

/-- Where a counted event happens. -/
inductive CountAt where
  | cluster (k : Nat)
  | die (d : Nat) (region : Nat)
  deriving DecidableEq, Repr

/-- A counter after `n` events of its source (15 R359): the new counter, and whether it overflowed with OVFIRQ. -/
def Counter.add (c : Counter) (src n : Nat) (region : Option Nat) : Counter × Bool :=
  if c.en && c.src.toNat == src && src != 0 && (!c.rfilt || region.map (· % 2 ^ 32) == some c.region.toNat) then
    let sum := c.cnt.toNat + n
    let wraps := decide (2 ^ 48 ≤ sum)
    ({ c with cnt := BitVec.ofNat 48 sum, ovf := c.ovf || wraps }, wraps && c.ovfirq)
  else (c, false)

/-- All counters of a list after events. -/
def countAll (cs : SMap Counter) (lo hi src n : Nat) (region : Option Nat) : SMap Counter × Bool :=
  cs.foldr (fun e acc =>
    if lo ≤ e.1 && e.1 < hi then
      let r := e.2.add src n region
      ((e.1, r.1) :: acc.1, acc.2 || r.2)
    else (e :: acc.1, acc.2)) ([], false)

/-- Count n events of a source (15 R359, R360). DESIGN CHOICE (entry 45); unsafe. -/
def State.count (s : State) (at_ : CountAt) (src n : Nat) : State :=
  match at_ with
  | .cluster k =>
    let cl := s.cluster k
    if cl.counters.isEmpty then s
    else
      let r := countAll cl.counters 0 8 src n (s.crewRegion? k)
      let s' := s.setCluster k { cl with counters := r.1 }
      if r.2 then { s' with ctl := s'.ctl.raise 16 } else s'
  | .die d region =>
    if s.ctl.counters.isEmpty then s
    else
      let r := countAll s.ctl.counters (16 * d) (16 * d + 16) src n (some region)
      let s' := { s with ctl := { s.ctl with counters := r.1 } }
      if r.2 then { s' with ctl := s'.ctl.raise 16 } else s'

/-- Whether a cache of `cap` lines takes a line without losing one. -/
def cacheFits (cap : Nat) (c : SMap (BitVec 512)) (line : Nat) : Bool := c.length < cap || (c.find? line).isSome

/-- A line put into a cache; where it is full, the line at place `out` leaves (11 R261). -/
def cacheAdd (cap out : Nat) (c : SMap (BitVec 512)) (line : Nat) (v : BitVec 512) : SMap (BitVec 512) :=
  if cacheFits cap c line then c.insert line v else SMap.insert (dropAt c (out % c.length)) line v

/-- A place among the free values has been used, where a cache was full. -/
def State.usedIf (s : State) (full : Bool) : State := if full then { s with freeUse := s.freeUse + 1 } else s

/-- A line kept in a core's L1D, of 64 KiB (00 R2; 11 R261). DESIGN CHOICE (entry 17); safe. -/
def State.l1dAdd (s : State) (n line : Nat) (v : BitVec 512) : State :=
  (s.setCore n { s.core n with l1d := cacheAdd Config.l1dLines (Config.victim s.freeUse) (s.core n).l1d line v }).usedIf
    (!cacheFits Config.l1dLines (s.core n).l1d line)

/-- A line kept in a core's I-cache, of 32 KiB (00 R2). DESIGN CHOICE (entry 17); safe. -/
def State.icacheAdd (s : State) (n line : Nat) (v : BitVec 512) : State :=
  (s.setCore n { s.core n with icache := cacheAdd Config.icacheLines (Config.victim s.freeUse) (s.core n).icache line v }).usedIf
    (!cacheFits Config.icacheLines (s.core n).icache line)

/-- A line kept in the host-line cache, of 4 MiB (14 R338). DESIGN CHOICE (entry 17); safe. -/
def State.hostLineAdd (s : State) (line : Nat) (v : BitVec 512) : State :=
  State.usedIf { s with io := { s.io with hostCache := cacheAdd Config.hostCacheLines (Config.victim s.freeUse) s.io.hostCache line v } }
    (!cacheFits Config.hostCacheLines s.io.hostCache line)

/-- What a step of the core's own contexts at n bytes of local HBM does to the core's L1D: the lines it touches leave (11 R261, R264). -/
def State.l1dForget (s : State) (n lo hi : Nat) : State :=
  if (s.core n).l1d.isEmpty then s
  else s.setCore n { s.core n with l1d := (s.core n).l1d.filter (fun e => !(lo ≤ e.1 && e.1 ≤ hi)) }

/-- A request of a context that is held at a home slice no longer (12 R298). -/
def State.dropWaits (s : State) (c : Nat) : State :=
  { s with waits := s.waits.filter (fun w => w.1 != .ctx c), walks := s.walks.filter (fun w => w.1 != .ctx c),
           io := { s.io with bells := s.io.bells.filter (fun b => b.who != .context c) } }

/-- Whether posted writes of a storer wait: a later one of it waits behind them (14 R336). -/
def State.posting (s : State) (st : Storer) : Bool := s.io.posts.any (fun p => p.1 == st)

/-- A posted write put behind those of its storer. -/
def State.post (s : State) (st : Storer) (what : PostWhat) : State := { s with io := { s.io with posts := s.io.posts ++ [(st, what)] } }

end Sys2Proof.Machine
end

