-- ==== Sys2Proof/Machine/Float.lean ====
section
/-! DEFINITION. Number formats and exact values (02 R37 to R39), rounding (R49, R50), conversions (R51, R52), block floating point
(R42 to R44) and the long accumulator (R58 to R60). -/
namespace Sys2Proof.Machine

/-- A floating-point format (02 R37): fraction bits, exponent bits, bias, whether it has infinities, the largest finite code, and
the canonical NaN code. -/
structure Fmt where
  fbits : Nat
  ebits : Nat
  bias : Nat
  hasInf : Bool
  maxCode : Nat
  nanCode : Nat
  deriving DecidableEq, Repr

/-- FP64. -/
def fp64 : Fmt := ⟨52, 11, 1023, true, 0x7FEFFFFFFFFFFFFF, 0x7FF8000000000000⟩
/-- FP32. -/
def fp32 : Fmt := ⟨23, 8, 127, true, 0x7F7FFFFF, 0x7FC00000⟩
/-- BF16. -/
def bf16 : Fmt := ⟨7, 8, 127, true, 0x7F7F, 0x7FC0⟩
/-- FP16. -/
def fp16 : Fmt := ⟨10, 5, 15, true, 0x7BFF, 0x7E00⟩
/-- FP8 E5M2. -/
def e5m2 : Fmt := ⟨2, 5, 15, true, 0x7B, 0x7E⟩
/-- FP8 E4M3: no infinity; one NaN code per sign. -/
def e4m3 : Fmt := ⟨3, 4, 7, false, 0x7E, 0x7F⟩
/-- FP4 E2M1: no infinity and no NaN; a NaN converts to +0 (02 R51). -/
def fp4 : Fmt := ⟨1, 2, 1, false, 7, 0⟩

/-- Width of a format. -/
def Fmt.width (f : Fmt) : Nat := 1 + f.ebits + f.fbits

/-- An exact value: NaN, an infinity, or (-1)^neg m 2^e, with both zeros. -/
inductive XVal where
  | nan
  | inf (neg : Bool)
  | fin (neg : Bool) (m : Nat) (e : Int)
  deriving DecidableEq, Repr

/-- FCSR flag bits (01 R31). -/
def fNX : Nat := 1
/-- Underflow. -/
def fUF : Nat := 2
/-- Overflow. -/
def fOF : Nat := 4
/-- Divide by zero. -/
def fDZ : Nat := 8
/-- Invalid. -/
def fNV : Nat := 16

/-- The value of a code (02 R38). -/
def Fmt.decode (f : Fmt) (x : Nat) : XVal :=
  let x := x % 2 ^ f.width
  let s := decide (x / 2 ^ (f.width - 1) = 1)
  let c := x % 2 ^ (f.width - 1)
  let E := c / 2 ^ f.fbits
  let F := c % 2 ^ f.fbits
  if f.maxCode < c then (if f.hasInf && F == 0 then .inf s else .nan)
  else if E = 0 then .fin s F (1 - f.bias - f.fbits : Int)
  else .fin s (2 ^ f.fbits + F) ((E : Int) - f.bias - f.fbits)

/-- Whether a code is a signalling NaN (02 R39). -/
def Fmt.snan (f : Fmt) (x : Nat) : Bool :=
  f.hasInf && (f.decode x == .nan) && (x / 2 ^ (f.fbits - 1)) % 2 == 0

/-- Rounding modes by FCSR code (02 R49): 0 RNE, 1 RTZ, 2 RUP, 3 RDN. Whether a magnitude r + rest/2^sh is rounded up. -/
def roundUp (rm : Nat) (neg : Bool) (r rest sh : Nat) (sticky : Bool) : Bool :=
  let inexact := rest != 0 || sticky
  match rm with
  | 0 => if sh = 0 then false
         else 2 ^ (sh - 1) < rest || (rest == 2 ^ (sh - 1) && (sticky || r % 2 == 1))
  | 1 => false
  | 2 => inexact && !neg
  | _ => inexact && neg

/-- A magnitude m 2^e (plus a part below one unit when sticky) on the grid 2^q: the rounded multiple, and whether it is inexact. -/
def onGrid (rm : Nat) (neg : Bool) (m : Nat) (e q : Int) (sticky : Bool) : Nat × Bool :=
  if q ≤ e then (m * 2 ^ (e - q).toNat, sticky)
  else
    let sh := (q - e).toNat
    let r := m / 2 ^ sh
    let rest := m % 2 ^ sh
    ((if roundUp rm neg r rest sh sticky then r + 1 else r), rest != 0 || sticky)

/-- What overflow gives (02 R50 step 3). -/
def Fmt.overflow (f : Fmt) (rm : Nat) (neg : Bool) : Nat :=
  if f.hasInf && (rm == 0 || (rm == 2 && !neg) || (rm == 3 && neg)) then (2 ^ f.ebits - 1) * 2 ^ f.fbits else f.maxCode

/-- RoundF of (-1)^neg (m + part) 2^e with 0 < part < 1 when sticky (02 R50): code and flags. A sticky value needs at least two bits of m below the
grid. -/
def Fmt.roundFin (f : Fmt) (rm : Nat) (neg : Bool) (m : Nat) (e : Int) (sticky : Bool) : Nat × Nat :=
  let sgn := if neg then 2 ^ (f.width - 1) else 0
  if m = 0 && !sticky then (sgn, 0)
  else
    let emin : Int := 1 - f.bias
    let E : Int := e + (Nat.log2 m : Int)
    let qmin : Int := emin - f.fbits
    let q : Int := (if E < emin then emin else E) - f.fbits
    let g := onGrid rm neg m e q sticky
    let code := (q - qmin).toNat * 2 ^ f.fbits + g.1
    if f.maxCode < code then (sgn + f.overflow rm neg, fOF ||| fNX)
    else
      let u := onGrid rm neg m e (E - f.fbits) sticky
      let tiny := E < emin && !(E == emin - 1 && u.1 == 2 ^ (f.fbits + 1))
      (sgn + code, if g.2 then (if tiny then fNX ||| fUF else fNX) else 0)

/-- RoundF of an exact value; infinities and NaN as in 02 R51. -/
def Fmt.round (f : Fmt) (rm : Nat) (v : XVal) : Nat × Nat :=
  match v with
  | .nan => (f.nanCode, if f.nanCode = 0 then fNV else 0)
  | .inf s =>
    let sgn := if s then 2 ^ (f.width - 1) else 0
    if f.hasInf then (sgn + (2 ^ f.ebits - 1) * 2 ^ f.fbits, 0) else (sgn + f.maxCode, fOF ||| fNX)
  | .fin s m e => f.roundFin rm s m e false

/-- Convert(x, src, dst) (02 R50 to R52). -/
def convert (src dst : Fmt) (rm x : Nat) : Nat × Nat :=
  let r := dst.round rm (src.decode x)
  (r.1, r.2 ||| if src.snan x then fNV else 0)

/-- Negation. -/
def XVal.neg : XVal → XVal
  | .nan => .nan
  | .inf s => .inf (!s)
  | .fin s m e => .fin (!s) m e

/-- Whether a value is a zero. -/
def XVal.isZero : XVal → Bool
  | .fin _ 0 _ => true
  | _ => false

/-- The exact product, and whether the operation is invalid (02 R39). -/
def XVal.mul (a b : XVal) : XVal × Bool :=
  match a, b with
  | .nan, _ => (.nan, false)
  | _, .nan => (.nan, false)
  | .inf s, .inf t => (.inf (s != t), false)
  | .inf s, .fin t m _ => if m = 0 then (.nan, true) else (.inf (s != t), false)
  | .fin s m _, .inf t => if m = 0 then (.nan, true) else (.inf (s != t), false)
  | .fin s m e, .fin t n g => (.fin (s != t) (m * n) (e + g), false)

/-- The signed integer of a finite value on the grid 2^q, for q at or below its exponent. -/
def scaled (s : Bool) (m : Nat) (e q : Int) : Int :=
  let x : Int := m * 2 ^ (e - q).toNat
  if s then -x else x

/-- The exact sum, and whether the operation is invalid; the sign of an exact zero depends on the mode (06 R142). -/
def XVal.add (rm : Nat) (a b : XVal) : XVal × Bool :=
  match a, b with
  | .nan, _ => (.nan, false)
  | _, .nan => (.nan, false)
  | .inf s, .inf t => if s == t then (.inf s, false) else (.nan, true)
  | .inf s, .fin _ _ _ => (.inf s, false)
  | .fin _ _ _, .inf t => (.inf t, false)
  | .fin s m e, .fin t n g =>
    if m = 0 && n = 0 then (.fin (if s == t then s else rm == 3) 0 e, false)
    else if m = 0 then (.fin t n g, false)
    else if n = 0 then (.fin s m e, false)
    else
      let q := min e g
      let x := scaled s m e q + scaled t n g q
      if x = 0 then (.fin (rm == 3) 0 q, false) else (.fin (x < 0) x.natAbs q, false)

/-- Signalling NaNs and invalid operations raise NV. -/
def nvIf (b : Bool) : Nat := if b then fNV else 0

/-- a + b rounded once (06 R141, R142). -/
def Fmt.addOp (f : Fmt) (rm a b : Nat) : Nat × Nat :=
  let r := XVal.add rm (f.decode a) (f.decode b)
  let q := f.round rm r.1
  (q.1, q.2 ||| nvIf (r.2 || f.snan a || f.snan b))

/-- The code with its sign bit turned; NaNs included. -/
def Fmt.flip (f : Fmt) (x : Nat) : Nat := (x % 2 ^ f.width) ^^^ 2 ^ (f.width - 1)

/-- a x b rounded once. -/
def Fmt.mulOp (f : Fmt) (rm a b : Nat) : Nat × Nat :=
  let r := (f.decode a).mul (f.decode b)
  let q := f.round rm r.1
  (q.1, q.2 ||| nvIf (r.2 || f.snan a || f.snan b))

/-- a x b + c fused (06 R141, R142). -/
def Fmt.fmaOp (f : Fmt) (rm a b c : Nat) : Nat × Nat :=
  let p := (f.decode a).mul (f.decode b)
  let r := p.1.add rm (f.decode c)
  let q := f.round rm r.1
  (q.1, q.2 ||| nvIf (p.2 || r.2 || f.snan a || f.snan b || f.snan c))

/-- a < b on values that are no NaN, with -0 below +0 when `zeros`. -/
def XVal.lt (zeros : Bool) (a b : XVal) : Bool :=
  match a, b with
  | .nan, _ => false
  | _, .nan => false
  | .inf s, .inf t => s && !t
  | .inf s, .fin _ _ _ => s
  | .fin _ _ _, .inf t => !t
  | .fin s m e, .fin t n g =>
    if m = 0 && n = 0 then zeros && s && !t
    else decide (scaled s m e (min e g) < scaled t n g (min e g))

/-- FMIN and FMAX (06 R143). -/
def Fmt.minMax (f : Fmt) (wantMax : Bool) (a b : Nat) : Nat × Nat :=
  let a := a % 2 ^ f.width
  let b := b % 2 ^ f.width
  let x := f.decode a
  let y := f.decode b
  let nv := nvIf (f.snan a || f.snan b)
  if x == .nan && y == .nan then (f.nanCode, nv)
  else if x == .nan then (b, nv)
  else if y == .nan then (a, nv)
  else if XVal.lt true x y then (if wantMax then b else a, nv)
  else (if wantMax then a else b, nv)

/-- Equality of values: +0 = -0; NaN equals nothing. -/
def XVal.eqv (a b : XVal) : Bool := a != .nan && b != .nan && !XVal.lt false a b && !XVal.lt false b a

/-- A comparison predicate and its flags (06 R144). -/
def Fmt.cmpOp (f : Fmt) (c : CmpOp) (a b : Nat) : Bool × Nat :=
  let x := f.decode a
  let y := f.decode b
  let un := x == .nan || y == .nan
  let sn := f.snan a || f.snan b
  match c with
  | .eq => (x.eqv y, nvIf sn)
  | .lt => (XVal.lt false x y, nvIf un)
  | .le => (XVal.lt false x y || x.eqv y, nvIf un)
  | .un => (un, nvIf sn)

/-- An exact value rounded to an integer within bounds (02 R52). -/
def XVal.toInt (rm : Nat) (lo hi : Int) (v : XVal) : Int × Nat :=
  match v with
  | .nan => (0, fNV)
  | .inf s => (if s then lo else hi, fNV)
  | .fin s m e =>
    if 80 < e + (Nat.log2 m : Int) && m != 0 then (if s then lo else hi, fNV)
    else
      let g := onGrid rm s m e 0 false
      let x : Int := if s then -(g.1 : Int) else g.1
      if hi < x then (hi, fNV) else if x < lo then (lo, fNV) else (x, if g.2 then fNX else 0)

/-- The value of an integer. -/
def XVal.ofInt (x : Int) : XVal := .fin (x < 0) x.natAbs 0

/-- The square root of a number, rounded down, found bit by bit. -/
def isqrtFrom (n : Nat) : Nat → Nat → Nat
  | 0, r => r
  | k + 1, r => if (r + 2 ^ k) * (r + 2 ^ k) ≤ n then isqrtFrom n k (r + 2 ^ k) else isqrtFrom n k r

/-- Square root rounded down. -/
def isqrt (n : Nat) : Nat := isqrtFrom n (Nat.log2 n / 2 + 1) 0

/-- a / b rounded once (06 R147). -/
def Fmt.divOp (f : Fmt) (rm a b : Nat) : Nat × Nat :=
  let nv := nvIf (f.snan a || f.snan b)
  match f.decode a, f.decode b with
  | .nan, _ => (f.nanCode, nv)
  | _, .nan => (f.nanCode, nv)
  | .inf _, .inf _ => (f.nanCode, fNV)
  | .inf s, .fin t _ _ => f.round rm (.inf (s != t))
  | .fin s _ _, .inf t => f.round rm (.fin (s != t) 0 0)
  | .fin s m e, .fin t n g =>
    if n = 0 then (if m = 0 then (f.nanCode, fNV) else ((f.round rm (.inf (s != t))).1, fDZ))
    else if m = 0 then f.round rm (.fin (s != t) 0 0)
    else
      let k := 2 * f.fbits + 8
      let q := m * 2 ^ k / n
      f.roundFin rm (s != t) q (e - g - k) (decide (m * 2 ^ k % n ≠ 0))

/-- The square root rounded once (06 R147). -/
def Fmt.sqrtOp (f : Fmt) (rm a : Nat) : Nat × Nat :=
  match f.decode a with
  | .nan => (f.nanCode, nvIf (f.snan a))
  | .inf s => if s then (f.nanCode, fNV) else f.round rm (.inf false)
  | .fin s m e =>
    if m = 0 then f.round rm (.fin s 0 0)
    else if s then (f.nanCode, fNV)
    else
      let k : Nat := 2 * f.fbits + 8 + (if (e - (2 * f.fbits + 8 : Nat)) % 2 = 0 then 0 else 1)
      let n := m * 2 ^ k
      let r := isqrt n
      f.roundFin rm false r ((e - k) / 2) (decide (r * r ≠ n))

/-- 1 / a (06 R147). -/
def Fmt.rcpOp (f : Fmt) (rm a : Nat) : Nat × Nat := f.divOp rm (f.round 0 (.fin false 1 0)).1 a

/-- 1 / sqrt a (06 R147). -/
def Fmt.rsqOp (f : Fmt) (rm a : Nat) : Nat × Nat :=
  match f.decode a with
  | .nan => (f.nanCode, nvIf (f.snan a))
  | .inf s => if s then (f.nanCode, fNV) else f.round rm (.fin false 0 0)
  | .fin s m e =>
    if m = 0 then ((f.round rm (.inf s)).1, fDZ)
    else if s then (f.nanCode, fNV)
    else
      let m2 := if e % 2 = 0 then m else 2 * m
      let e2 : Int := if e % 2 = 0 then e else e - 1
      let k := 2 * f.fbits + 8
      let r := isqrt (2 ^ (2 * k) / m2)
      f.roundFin rm false r (-(k : Int) - e2 / 2) (decide (r * r * m2 ≠ 2 ^ (2 * k)))

/-- The sum over k of 1/(k 2^k) to n terms, scaled by 2^p: ln 2 from below, within n + 1 units. -/
def ln2Sum (p : Nat) : Nat → Nat
  | 0 => 0
  | n + 1 => ln2Sum p n + 2 ^ p / ((n + 1) * 2 ^ (n + 1))

/-- The Taylor sum of exp(t / 2^p), scaled by 2^p: `n` further terms from the k-th, whose value is `term`. -/
def expSum (p t : Nat) : Nat → Nat → Nat → Nat
  | 0, _, _ => 0
  | n + 1, k, term => term + expSum p t n (k + 1) (term * t / 2 ^ p / (k + 1))

/-- The sum of z^(2k+1)/(2k+1), scaled by 2^p: `n` further terms; `zk` is the power of z. -/
def atanhSum (p z2 : Nat) : Nat → Nat → Nat → Nat
  | 0, _, _ => 0
  | n + 1, k, zk => zk / (2 * k + 1) + atanhSum p z2 n (k + 1) (zk * z2 / 2 ^ p)

/-- A value known to lie strictly within lo 2^e and hi 2^e, rounded if both ends round alike. -/
def Fmt.roundBetween (f : Fmt) (rm : Nat) (neg : Bool) (lo hi : Nat) (e : Int) : Option (Nat × Nat) :=
  let a := f.roundFin rm neg lo e true
  let b := f.roundFin rm neg (hi - 1) e true
  if a = b then some a else none

/-- 2^x for x = i + t/2^p with 0 ≤ t < 2^p, an enclosure of 2^(t/2^p) scaled by 2^p. -/
def exp2Frac (p t : Nat) : Nat × Nat :=
  let y := t * ln2Sum p p / 2 ^ p
  let v := expSum p y (p / 2) 0 (2 ^ p)
  (v - 2 ^ 14, v + 2 ^ 14)

/-- An enclosure of ln y scaled by 2^p, for 1 ≤ y = n/2^k < 2. -/
def lnFrac (p n k : Nat) : Nat × Nat :=
  let z := (n - 2 ^ k) * 2 ^ p / (n + 2 ^ k)
  let v := 2 * atanhSum p (z * z / 2 ^ p) p 0 z
  (v - 2 ^ 12, v + 2 ^ 12)

/-- Precisions tried for a transcendental result, in bits. -/
def precisions : List Nat := [256, 640, 1400]

/-- 2^a, exact or rounded once (06 R147): the first precision whose enclosure rounds alike decides. The loop's last answer stands for results that no
precision tried could separate; none is known (entry 15). Unsafe. -/
def Fmt.exp2Op (f : Fmt) (rm a : Nat) : Nat × Nat :=
  match f.decode a with
  | .nan => (f.nanCode, nvIf (f.snan a))
  | .inf s => if s then f.round rm (.fin false 0 0) else f.round rm (.inf false)
  | .fin s m e =>
    if m = 0 then f.round rm (.fin false 1 0)
    else if 15 < e + (Nat.log2 m : Int) then
      (if s then f.roundFin rm false (2 ^ 100) (-5000) true else f.roundFin rm false (2 ^ 100) 5000 true)
    else if e + (Nat.log2 m : Int) < -200 then
      (if s then f.roundFin rm false (2 ^ 150 - 1) (-150) true else f.roundFin rm false (2 ^ 150) (-150) true)
    else if 0 ≤ e then f.roundFin rm false 1 (if s then -((m : Int) * 2 ^ e.toNat) else (m : Int) * 2 ^ e.toNat) false
    else
      let d := (-e).toNat
      let x : Int := if s then -(m : Int) else m
      let i := x / (2 ^ d : Nat)
      let r := (x % (2 ^ d : Nat)).toNat
      if r = 0 then f.roundFin rm false 1 i false
      else
        (precisions.findSome? (fun p =>
          let b := exp2Frac p (r * 2 ^ p / 2 ^ d)
          f.roundBetween rm false b.1 b.2 (i - p))).getD (f.roundFin rm false (exp2Frac 256 (r * 2 ^ 256 / 2 ^ d)).1 (i - 256) true)

/-- log2 a, exact or rounded once (06 R147). -/
def Fmt.log2Op (f : Fmt) (rm a : Nat) : Nat × Nat :=
  match f.decode a with
  | .nan => (f.nanCode, nvIf (f.snan a))
  | .inf s => if s then (f.nanCode, fNV) else f.round rm (.inf false)
  | .fin s m e =>
    if m = 0 then ((f.round rm (.inf true)).1, fDZ)
    else if s then (f.nanCode, fNV)
    else
      let k := Nat.log2 m
      let i : Int := e + k
      if m = 2 ^ k then f.round rm (.fin (i < 0) i.natAbs 0)
      else
        let at_ := fun p =>
          let l := lnFrac p m k
          let c := ln2Sum p p
          let lo : Int := i * 2 ^ p + (l.1 * 2 ^ p / (c + p + 2) : Nat)
          let hi : Int := i * 2 ^ p + (l.2 * 2 ^ p / c + 1 : Nat)
          if 0 ≤ lo then f.roundBetween rm false lo.toNat hi.toNat (-p)
          else f.roundBetween rm true (-hi).toNat (-lo).toNat (-p)
        (precisions.findSome? at_).getD (f.nanCode, 0)

/-- e^y for y = n/2^d (n ≥ 0) as an enclosure (lo, hi) scaled by 2^p of the value 2^-i e^y, with i. -/
def expEncl (p n d : Nat) : Nat × Nat × Nat :=
  let c := ln2Sum p p
  let y := n * 2 ^ p / 2 ^ d
  let i := y / c
  let v := expSum p (y % c) (p / 2) 0 (2 ^ p)
  (v - 2 ^ 24, v + 2 ^ 24, i)

/-- tanh on FP32, rounded to nearest (10 R250). -/
def tanh32 (a : Nat) : Nat :=
  match fp32.decode a with
  | .nan => fp32.nanCode
  | .inf s => (fp32.round 0 (.fin s 1 0)).1
  | .fin s m e =>
    if m = 0 then (fp32.round 0 (.fin s 0 0)).1
    else if e + (Nat.log2 m : Int) < -60 then (fp32.roundFin 0 s (m * 2 ^ 100 - 1) (e - 100) true).1
    else if 6 < e + (Nat.log2 m : Int) then (fp32.roundFin 0 s (2 ^ 100 - 1) (-100) true).1
    else
      let d := (1000 - e).toNat
      let n := m * 2 ^ 1000
      let at_ := fun p =>
        let b := expEncl p (2 * n) d
        let one := 2 ^ p
        let lo := b.1 * 2 ^ b.2.2
        let hi := b.2.1 * 2 ^ b.2.2
        (fp32.roundBetween 0 s ((lo - one) * 2 ^ p / (lo + one)) ((hi - one) * 2 ^ p / (hi + one) + 1) (-p)).map (·.1)
      (precisions.findSome? at_).getD fp32.nanCode

/-- 1/(1 + e^-a) on FP32, rounded to nearest (10 R250). -/
def sigmoid32 (a : Nat) : Nat :=
  match fp32.decode a with
  | .nan => fp32.nanCode
  | .inf s => (fp32.round 0 (.fin false (if s then 0 else 1) 0)).1
  | .fin s m e =>
    if m = 0 then (fp32.round 0 (.fin false 1 (-1))).1
    else if e + (Nat.log2 m : Int) < -60 then
      (if s then (fp32.roundFin 0 false (2 ^ 150 - 1) (-151) true).1 else (fp32.roundFin 0 false (2 ^ 150) (-151) true).1)
    else if 8 < e + (Nat.log2 m : Int) then
      (if s then (fp32.roundFin 0 false (2 ^ 100) (-600) true).1 else (fp32.roundFin 0 false (2 ^ 150 - 1) (-150) true).1)
    else
      let d := (1000 - e).toNat
      let n := m * 2 ^ 1000
      let at_ := fun p =>
        let b := expEncl p n d
        let one := 2 ^ p
        let lo := b.1 * 2 ^ b.2.2
        let hi := b.2.1 * 2 ^ b.2.2
        let g := 300
        (if s then fp32.roundBetween 0 false (one * 2 ^ (p + g) / (hi + one)) (one * 2 ^ (p + g) / (lo + one) + 1) (-p - g)
         else fp32.roundBetween 0 false (lo * 2 ^ (p + g) / (lo + one)) (hi * 2 ^ (p + g) / (hi + one) + 1) (-p - g)).map (·.1)
      (precisions.findSome? at_).getD fp32.nanCode

/-- Exact floor of log2 of a positive finite value. -/
def XVal.log2Floor : XVal → Int
  | .fin _ m e => e + (Nat.log2 m : Int)
  | _ => 0

/-- A value times 2^k. -/
def XVal.shift (k : Int) : XVal → XVal
  | .fin s m e => .fin s m (e + k)
  | v => v

/-- One pass of BxEncode with exponent byte XE over the values (02 R44): mantissas, or a request to restart with a larger exponent. -/
def bxPass (m : Nat) (xe : Nat) : List XVal → Option (List Int)
  | [] => some []
  | v :: l =>
    let hi : Int := 2 ^ (m - 1) - 1
    let lo : Int := -(2 ^ (m - 1))
    match v, bxPass m xe l with
    | _, none => none
    | .inf s, some r => some ((if s then lo else hi) :: r)
    | .nan, some r => some (0 :: r)
    | .fin s n e, some r =>
      let g := onGrid 0 s n (e - ((xe : Int) - 127 - (m - 2 : Nat))) 0 false
      let x : Int := if s then -(g.1 : Int) else g.1
      if hi < x || x < lo then (if xe < 254 then none else some ((if hi < x then hi else lo) :: r)) else some (x :: r)

/-- BxEncode (02 R44), without flags: exponent byte and mantissas. -/
def bxEncode (m : Nat) (xs : List XVal) : Nat × List Int :=
  let anyInf := xs.any (fun v => match v with | .inf _ => true | _ => false)
  let live := xs.filter (fun v => match v with | .fin _ n _ => n != 0 | _ => false)
  let top := live.foldl (fun (acc : Option Int) v => some (match acc with | none => v.log2Floor | some y => max y v.log2Floor)) none
  let xe : Nat := if anyInf then 254 else match top with | none => 0 | some y => (min (max (y + 127) 0) 254).toNat
  match bxPass m xe xs with
  | some r => (xe, r)
  | none => (xe + 1, (bxPass m (xe + 1) xs).getD [])

/-- The value of a BXm element (02 R42, R43). -/
def bxValue (m : Nat) (mant : Nat) (xe : Nat) : XVal :=
  if xe = 255 then .nan
  else
    let x : Int := (BitVec.ofNat m mant).toInt
    .fin (x < 0) x.natAbs ((xe : Int) - 127 - (m - 2 : Nat))

/-- Whether the 384-bit word of a long accumulator is in the special state (02 R58). -/
def lacSpecial (a : Nat) : Bool := let h := bits a 383 351; h != 0 && h != 2 ^ 33 - 1

/-- The canonical special word with flags F[3:0] (02 R59). -/
def lacFlags (f : Nat) : Nat := 2 ^ 382 + f % 16 * 2 ^ 352

/-- LacAdd (02 R59). -/
def lacAdd (a : Nat) (x : XVal) : Nat :=
  if lacSpecial a then
    let f0 := bits a 355 352
    let f1 := if f0 % 8 = 0 then f0 ||| 4 else f0
    lacFlags (match x with
      | .nan => f1 ||| 4
      | .inf s => if s then f1 ||| 2 else f1 ||| 1
      | .fin _ _ _ => f1)
  else
    match x with
    | .nan => lacFlags 4
    | .inf s => lacFlags (if s then 2 else 1)
    | .fin s m e =>
      let v := (BitVec.ofNat 384 a).toInt + scaled s m e (-149)
      if (2 ^ 351 : Int) ≤ v then lacFlags 9
      else if v < -(2 ^ 351 : Int) then lacFlags 10
      else (BitVec.ofInt 384 v).toNat

/-- LacRound (02 R60). -/
def lacRound (rm a : Nat) : Nat × Nat :=
  if lacSpecial a then
    let f := bits a 355 352
    let ovf := 8 ≤ f
    if 4 ≤ f % 8 then (fp32.nanCode, 0)
    else match f % 4 with
      | 3 => (fp32.nanCode, fNV)
      | 1 => ((fp32.round 0 (.inf false)).1, if ovf then fOF ||| fNX else 0)
      | 2 => ((fp32.round 0 (.inf true)).1, if ovf then fOF ||| fNX else 0)
      | _ => (fp32.nanCode, fNV)
  else
    let v := (BitVec.ofNat 384 a).toInt
    fp32.round rm (.fin (v < 0) v.natAbs (-149))

end Sys2Proof.Machine
end

