-- ==== Sys2Proof/Machine/Path.lean ====
section
/-! DEFINITION. What an entry of a core's store path does at its point of coherence (11 R260; 06 R134, R156, R157; 13 R317): the bytes it writes over
those it finds, and the errors that stop it. -/
namespace Sys2Proof.Machine

/-- The value a LACA operand holds (06 R156). -/
def lacOperand (k : LacKind) (x : Word) : XVal × Bool :=
  match k with
  | .s => (fp32.decode (field x 31 0), fp32.snan (field x 31 0))
  | .bf => (bf16.decode (field x 15 0), bf16.snan (field x 15 0))
  | .h => (fp16.decode (field x 15 0), fp16.snan (field x 15 0))

/-- Bytes that an entry of a store path covers. -/
def PathOp.len : PathOp → Nat
  | .store d => d.length
  | .bits _ d => d.length
  | .lacZero => 48
  | .lacAdd _ _ => 48
  | .token _ => 0

/-- Bits under a mask replaced, byte by byte (06 R134). -/
def mixBytes : List Byte → List Byte → List Byte → List Byte
  | m :: ms, d :: ds, o :: os => ((o &&& ~~~m) ||| (d &&& m)) :: mixBytes ms ds os
  | _, _, _ => []

/-- What an entry writes over the bytes it finds. -/
def PathOp.apply (op : PathOp) (old : List Byte) : List Byte :=
  match op with
  | .store d => d
  | .bits m d => mixBytes m d old
  | .lacZero => List.replicate 48 0
  | .token _ => []
  | .lacAdd k x => leBytes 48 (Machine.lacAdd (leNat old) (lacOperand k x).1)

/-- The doublewords that LACA touches (06 R157): dw5, and each whose contents change. -/
def lacTouched (old new : List Byte) : List Nat :=
  (List.range 6).filter (fun i => i == 5 || (old.drop (8 * i)).take 8 != (new.drop (8 * i)).take 8)

/-- The first granule with an uncorrectable error that LACA meets at a record (06 R157; 13 R317). -/
def lacBad (s : State) (a : Nat) (k : LacKind) (x : Word) : Option Nat :=
  let old := memRead s.mem a 48
  ((lacTouched old ((PathOp.lacAdd k x).apply old)).map (fun i => a / 8 + i)).find? s.bad.contains

/-- Whether an uncorrectable error stops an entry at its point of coherence (13 R317). -/
def PathOp.spoilt (op : PathOp) (s : State) (a : Nat) : Bool :=
  match op with
  | .store d => (badPartial s.bad a d.length).isSome
  | .bits _ d => badIn s.bad a d.length
  | .lacZero => false
  | .lacAdd k x => (lacBad s a k x).isSome
  | .token _ => false

/-- An entry's effect at memory of this device. LACA leaves the granules alone that it does not touch (06 R157). -/
def State.applyOp (s : State) (a : Nat) (op : PathOp) : State :=
  let t := s.poke a (op.apply (memRead s.mem a op.len))
  match op with
  | .lacAdd _ _ => { t with bad := s.bad }
  | .store _ | .bits _ _ | .lacZero | .token _ => t

/-- The local address of a physical one. -/
def localOf (pa : Nat) : Nat := pa % Config.localEnd

/-- Entries of a store path that perform in order, each where no error stops it. -/
def State.performed (s : State) (l : List PathEntry) : State :=
  l.foldl (fun t e => if e.op.spoilt t (localOf e.pa) then t else t.applyOp (localOf e.pa) e.op) s

end Sys2Proof.Machine
end

