-- ==== Sys2Proof/Machine/Xlate.lean ====
section
/-! DEFINITION. Addresses: the map of 01 R36, page tables, translation caches and rights (13 R301 to R306), the crew aperture
(05 R117), and the checks of one access in the order of 13 R310. -/
namespace Sys2Proof.Machine

/-- The answer of a check: a value, a fault, or "held": the access waits where it goes and is made again. -/
inductive Res (α : Type) where
  | ok (v : α)
  | fault (f : FaultInfo)
  | held
  deriving DecidableEq, Repr

/-- Fault codes (13 R308). -/
inductive Code where
  | illegal | priv | align | xlateNp | xlateProt | peerGone | peerFrozen | tileGuard | hdrMismatch | hdrUnsup | hdrCheck
  | shelfState | featAbsent | eccUncorr | gleanMember | wsLive | bounds | trapInsn
  deriving DecidableEq, Repr

/-- Their numbers. -/
def Code.num : Code → Nat
  | .illegal => 1 | .priv => 2 | .align => 3 | .xlateNp => 4 | .xlateProt => 5 | .peerGone => 6 | .peerFrozen => 7
  | .tileGuard => 8 | .hdrMismatch => 9 | .hdrUnsup => 10 | .hdrCheck => 11 | .shelfState => 12 | .featAbsent => 13
  | .eccUncorr => 14 | .gleanMember => 15 | .wsLive => 16 | .bounds => 17 | .trapInsn => 18

/-- A fault with DETAIL 0 and ACC 0. DEDUCED (entry 8); unsafe. -/
def flt (c : Code) (addr : Word) (detail : Nat := 0) (acc : Nat := 0) : FaultInfo := ⟨c.num, addr, detail, acc, false, 0⟩

/-- The address that a reply's fault names (13 R308), from the first byte of the access that failed. -/
def replyAddr (code : Nat) (va : Word) (off : Nat) : Word :=
  if code = Code.eccUncorr.num then word (va.toNat / 8 * 8 + off) else va + word off

/-- Who makes an access: the core whose TLBs serve it, or the engine, or the cluster whose TLB serves its image fetches, or none; region,
ASID, level and span. -/
structure Who where
  ctx : Option Nat
  core : Option Nat
  engine : Option Nat
  region : Nat
  asid : BitVec 16
  user : Bool
  span : Option Nat             -- none: the agent belongs to no span, so the aperture has no rank for it (05 R117)
  own : Option Nat := none      -- the draining cluster whose operation this is: its window stays open to it (13 R315)
  cluster : Option Nat := none  -- the cluster whose TLB serves an image fetch at launch (13 R304)
  place : Option Waiter := none -- the place that its requests take at home slices, where neither a context nor an engine asks (entry 12)
  deriving DecidableEq, Repr

/-- What an access needs (13 R303): read, write, execute; `fut` for a future-cell instruction; `mmio` for an aligned 8-byte LD
or SD. -/
structure Need where
  r : Bool
  w : Bool
  x : Bool := false
  fut : Bool := false
  mmio : Bool := false
  hit : Bool := false      -- a load that an L1D line may serve (11 R261)
  blind : Bool := false    -- needs R and W but reads no byte (LACZ)
  only : Bool := false     -- needs R and W but writes no byte (LACR)
  cells : Bool := false    -- a write other than a store, an SBIT, an AMO or a LAC operation: a future page does not refuse it
  elem : Bool := false     -- a copy element, a member write of GST, or SPAWN.peer's push: a frozen crew refuses it at any level (07 R189; 13 R315)
  free : Bool := false     -- no ECC test: the instruction tests the bytes that it touches itself
  deriving DecidableEq, Repr

/-- ACC of TRAPINFO (13 R309). -/
def Need.acc (n : Need) : Nat := if n.x then 2 else if n.r && n.w then 3 else if n.w then 1 else 0
/-- Loads. -/
def Need.load : Need := { r := true, w := false }
/-- Stores. -/
def Need.store : Need := { r := false, w := true }
/-- Atomic steps. -/
def Need.rmw : Need := { r := true, w := true }
/-- Writes that are no stores: of copy elements, queue and tile steps, records and answers (13 R303). -/
def Need.put : Need := { r := false, w := true, cells := true }
/-- Steps that read and write and are no atomics: of queues and joins (13 R303). -/
def Need.step : Need := { r := true, w := true, cells := true }
/-- Writes that a frozen crew refuses at any level: of copy elements, and of SPAWN.peer's record (07 R189; 13 R303, R315). -/
def Need.element : Need := { Need.put with elem := true }
/-- Whether bytes are written. -/
def Need.writes (n : Need) : Bool := n.w && !n.only
/-- Instruction fetch. -/
def Need.fetch : Need := { r := false, w := false, x := true }

/-- Where a physical address lies (01 R36). -/
inductive Place where
  | hbm
  | pad (k off : Nat)
  | store (core off : Nat)
  | mmio
  | host
  | remote (dev : Nat)
  | hole
  deriving DecidableEq, Repr

/-- The place of a local address. -/
def placeLocal (a : Nat) : Place :=
  if a < Config.hbmEnd then .hbm
  else if Config.padBase ≤ a && a < Config.padBase + Config.clusters * Config.padSize then
    .pad ((a - Config.padBase) / Config.padSize) ((a - Config.padBase) % Config.padSize)
  else if Config.storeBase ≤ a && a < Config.storeBase + Config.cores * Config.storeSize then
    .store ((a - Config.storeBase) / Config.storeSize) ((a - Config.storeBase) % Config.storeSize)
  else if Config.mmioBase ≤ a && a < Config.hostBase then .mmio
  else if Config.hostBase ≤ a && a < Config.localEnd then .host
  else .hole

/-- The place of a physical address with device bits [51:42]. -/
def State.place (s : State) (pa : Nat) : Place :=
  if pa / Config.localEnd = s.ctl.devid then placeLocal (pa % Config.localEnd)
  else match placeLocal (pa % Config.localEnd) with
    | .hole => .hole
    | _ => .remote (pa / Config.localEnd)

/-- Whether a frame of 2^sz bytes lies wholly outside the holes (01 R36). -/
def frameOk (a sz : Nat) : Bool :=
  let lo := a % Config.localEnd
  let hi := lo + 2 ^ sz - 1
  hi < Config.hbmEnd || (Config.padBase ≤ lo && hi < Config.padBase + Config.clusters * Config.padSize) ||
    (Config.storeBase ≤ lo && hi < Config.storeBase + Config.cores * Config.storeSize) ||
    (Config.mmioBase ≤ lo && hi < Config.localEnd)

/-- Physical address of a byte of a scratchpad. -/
def padAddr (k off : Nat) : Nat := Config.padBase + k * Config.padSize + off

/-- Extent of dimension k of a copy record (07 R171). -/
def CopyCmd.extent (c : CopyCmd) (k : Nat) : Nat := field (c.words.getD (4 + 3 * k) 0) 31 0
/-- NDIM of a record. -/
def CopyCmd.ndim (c : CopyCmd) : Nat := field (c.words.getD 2 0) 10 8
/-- Element size of a record in bytes. -/
def CopyCmd.esz (c : CopyCmd) : Nat := 2 ^ field (c.words.getD 2 0) 2 0
/-- RESUME. -/
def CopyCmd.resume (c : CopyCmd) : Nat := field (c.words.getD 3 0) 47 0
/-- Offset of element e over dimensions k and up, with strides from word `o + 3k` (07 R171). -/
def CopyCmd.offset (c : CopyCmd) (o : Nat) : Nat → Nat → Nat → Word
  | 0, _, _ => 0
  | n + 1, k, e =>
    let x := c.extent k
    word (e % x) * c.words.getD (o + 3 * k) 0 + c.offset o n (k + 1) (e / x)
/-- Source address of element e. -/
def CopyCmd.src (c : CopyCmd) (e : Nat) : Word := c.words.getD 0 0 + c.offset 5 c.ndim 0 e
/-- Destination address of element e. -/
def CopyCmd.dst (c : CopyCmd) (e : Nat) : Word := c.words.getD 1 0 + c.offset 6 c.ndim 0 e
/-- The product of the extents. -/
def CopyCmd.total (c : CopyCmd) : Nat := ((List.range c.ndim).map c.extent).foldl (· * ·) 1

/-- Whether element e writes a byte of a virtual line. -/
def CopyCmd.hits (c : CopyCmd) (vline e : Nat) : Bool :=
  let a := (c.dst e).toNat
  a / 64 ≤ vline && vline ≤ (a + c.esz - 1) / 64

/-- Whether a registered line is still held (11 R275): some element not yet written falls in it, or no element of the copy does. -/
def CopyCmd.holds (c : CopyCmd) (vline : Nat) : Bool :=
  let n := c.total
  (List.range (n - c.next)).any (fun i => c.hits vline (c.next + i)) ||
    !(List.range (c.next - c.resume)).any (fun i => c.hits vline (c.resume + i))

/-- Whether a home slice holds other agents' accesses to a line for some copy (11 R275). -/
def State.registered (s : State) (line : Nat) : Bool :=
  s.engines.any (fun e => e.2.queue.any (fun c =>
    c.lines.any (fun (v, p, n) => p ≤ line && line < p + n && c.holds (v + (line - p)))))

/-- Who asks: the agent that is named, or the row of the table that acts in this step, which stands for the coordinator, a binder, the host, another
device or an Ethernet peer. DESIGN CHOICE (entry 12); safe. -/
def State.asker (s : State) (me : Option Waiter) : Option Waiter := me.orElse (fun _ => s.row.map (·.1))

/-- Whether a home slice holds a request for a line: some copy's registration does (11 R275), or an earlier request for the line waits there
(12 R298). `me` is the request that asks. -/
def State.heldAt (s : State) (me : Option Waiter) (line : Nat) : Bool :=
  if me = some .engine then false
  else s.registered line || (s.waits.takeWhile (fun w => some w.1 != s.asker me || w.2 != line)).any (fun w => w.2 == line)

/-- The counter of requests that a copy's registration holds (15 R360): of the issuer's die and region for a core's request, else of the home
slice's die. DESIGN CHOICE (entry 45); unsafe. -/
def Waiter.countAt (s : State) (line : Nat) (w : Waiter) : CountAt :=
  match w with
  | .ctx c => .die (coreOf c / 256) ((s.crewRegion? (clusterOf c)).getD 0)
  | .path n => .die (n / 256) ((s.crewRegion? (n / 4)).getD 0)
  | .engine | .writes | .storer _ | .row _ => .die (Config.homeSlice line % 128 / 32) 0

/-- The row that acts is held where its request is the one that waits. -/
def State.rowHeld (s : State) (w : Waiter) : State :=
  { s with row := s.row.map (fun r => (r.1, r.2 || r.1 == w)) }

/-- A request takes its place in a home slice's order of arrival (12 R298), if it has none there; one that a registration holds is counted. -/
def State.waitAt (s : State) (me : Option Waiter) (line : Nat) : State :=
  match s.asker me with
  | some w =>
    let t := s.rowHeld w
    if s.waits.contains (w, line) then t
    else
      let u := { t with waits := s.waits ++ [(w, line)] }
      if s.registered line then u.count (w.countAt s line) 6 1 else u
  | none => s

/-- The places of an asker given up. -/
def State.dropPlaces (s : State) (me : Option Waiter) : State :=
  { s with waits := s.waits.filter (fun w => some w.1 != me), walks := s.walks.filter (fun w => some w.1 != me) }

/-- The end of what a row of the table does: unless its request is held, or a ring entry's write of its step awaits its answer, it has no place at a
home slice any more. -/
def State.settleRow (s : State) : State :=
  let t := { s with row := none }
  match s.row with
  | some (w, held) => if held || s.io.rings.any (fun r => r.who == some w) then t else t.dropPlaces (some w)
  | none => t

/-- The place that an agent's requests take. -/
def Who.waiter (w : Who) : Option Waiter := if w.engine.isSome then some .engine else (w.ctx.map Waiter.ctx).orElse (fun _ => w.place)

/-- Where the store path of a context's core stood when its instruction issued: the number of the first entry after it (11 R263). -/
def State.issuedAt (s : State) (c : Nat) : Nat := ((s.ctx? c).bind (·.mark)).getD (s.core (coreOf c)).pathNext

/-- The entries of a core's store path that come before a request of it: a context's, those that were there when its instruction issued. -/
def State.before (s : State) (n : Nat) (me : Option Waiter) (e : PathEntry) : Bool :=
  e.num < match me with
    | some (.ctx c) => s.issuedAt c
    | _ => (s.core n).pathNext

/-- The state that an access of a core meets at a line of this device's HBM: the core's earlier entries for the line perform before it (11
R260). -/
def State.met (s : State) (w : Who) (pa : Nat) : State :=
  match s.place pa, w.core with
  | .hbm, some n =>
    if (s.core n).path.isEmpty then s
    else s.performed ((s.core n).path.filter (fun e => e.pa / 64 == pa / 64 && s.before n w.waiter e))
  | _, _ => s

/-- The walk's own faults carry WALK (13 R309). -/
def walkFault (c : Code) (va : Word) (detail acc : Nat) : FaultInfo := ⟨c.num, va, detail, acc, true, 0⟩

/-- The walk of 13 R302 from level `lvl`: the leaf and its level. A walk of a core reads each entry with the core's own earlier stores to it, which
happen before the access (R306; 11 R265). DEDUCED (entry 12); safe. -/
def walk (s : State) (w : Who) (va : Word) (acc : Nat) : Nat → Nat → Res (Word × Nat)
  | t, lvl =>
    match s.place t with
    | .hbm =>
      let a := t % Config.localEnd + 8 * field va (16 + 10 * lvl + 9) (16 + 10 * lvl)
      let m := s.met w (s.phys a)
      if s.heldAt w.waiter (a / 64) then .held
      else if badIn m.bad a 8 then .fault (walkFault .eccUncorr va 2 acc)
      else
        let e := m.peek64 a
        if e.getLsbD 0 == false then .fault (walkFault .xlateNp va lvl acc)
        else if field e 63 52 != 0 || field e 12 7 != 0 then .fault (walkFault .xlateProt va 2 acc)
        else if e.getLsbD 1 == false then
          match lvl with
          | 0 => .fault (walkFault .xlateProt va 2 acc)
          | l + 1 => if field e 6 2 != 0 then .fault (walkFault .xlateProt va 2 acc)
                     else walk s w va acc (field e 51 13 * 2 ^ 13) l
        else if lvl = 3 then .fault (walkFault .xlateProt va 2 acc)
        else if bits e.toNat (16 + 10 * lvl - 1) 13 != 0 then .fault (walkFault .xlateProt va 2 acc)
        else .ok (e, lvl)
    | _ => .fault (walkFault .xlateProt va 6 acc)
termination_by structural _ lvl => lvl

/-- A cached translation of an address. -/
def tlbFind (l : List TlbEntry) (asid : BitVec 16) (va : Word) : Option TlbEntry :=
  l.find? (fun e => e.asid == asid && va.toNat / 2 ^ e.size == e.page)

/-- A translation added; the oldest of a full cache leaves (13 R304: the policy has no architectural effect). -/
def tlbAdd (l : List TlbEntry) (n : Nat) (e : TlbEntry) : List TlbEntry := (e :: l).take n

/-- A page's entry removed. -/
def tlbDrop (l : List TlbEntry) (asid : BitVec 16) (va : Word) : List TlbEntry :=
  l.filter (fun e => !(e.asid == asid && va.toNat / 2 ^ e.size == e.page))

/-- The line of the table entry at which a walk is held, where one is (11 R275). -/
def walkStop (s : State) (w : Who) (va : Word) : Nat → Nat → Option Nat
  | t, lvl =>
    match s.place t with
    | .hbm =>
      let a := t % Config.localEnd + 8 * field va (16 + 10 * lvl + 9) (16 + 10 * lvl)
      if s.heldAt w.waiter (a / 64) then some (a / 64)
      else
        match lvl with
        | 0 => none
        | l + 1 => walkStop s w va (field ((s.met w (s.phys a)).peek64 a) 51 13 * 2 ^ 13) l
    | _ => none
termination_by structural _ lvl => lvl

/-- The translation an agent has cached, in its micro-TLB or its cluster's TLB (13 R304). -/
def State.tlbLookup (s : State) (w : Who) (va : Word) : Option TlbEntry :=
  match w.core, w.engine, w.cluster with
  | some n, _, _ =>
    match tlbFind (s.core n).tlb w.asid va with
    | some e => some e
    | none => tlbFind (s.cluster (n / 4)).tlb w.asid va
  | none, some e, _ => tlbFind (s.engine e).tlb w.asid va
  | none, none, some k => tlbFind (s.cluster k).tlb w.asid va
  | none, none, none => none

/-- A translation put into a cluster's TLB. -/
def State.clusterTlbAdd (s : State) (k : Nat) (e : TlbEntry) : State :=
  let cl := s.cluster k
  if cl.tlb.contains e then s else s.setCluster k { cl with tlb := tlbAdd cl.tlb 512 e }

/-- A page's entry taken out of a cluster's TLB. -/
def State.clusterTlbDrop (s : State) (k : Nat) (asid : BitVec 16) (va : Word) : State :=
  s.setCluster k { s.cluster k with tlb := tlbDrop (s.cluster k).tlb asid va }

/-- A translation put into the agent's caches. -/
def State.tlbFill (s : State) (w : Who) (e : TlbEntry) : State :=
  match w.core, w.engine, w.cluster with
  | some n, _, _ => (s.setCore n { s.core n with tlb := tlbAdd (s.core n).tlb 32 e }).clusterTlbAdd (n / 4) e
  | none, some k, _ => s.setEngine k { s.engine k with tlb := tlbAdd (s.engine k).tlb 32 e }
  | none, none, some k => s.clusterTlbAdd k e
  | none, none, none => s

/-- A page's entry removed from the agent's caches after a protection fault (13 R304). -/
def State.tlbForget (s : State) (w : Who) (va : Word) : State :=
  match w.core, w.engine, w.cluster with
  | some n, _, _ => (s.setCore n { s.core n with tlb := tlbDrop (s.core n).tlb w.asid va }).clusterTlbDrop (n / 4) w.asid va
  | none, some k, _ => s.setEngine k { s.engine k with tlb := tlbDrop (s.engine k).tlb w.asid va }
  | none, none, some k => s.clusterTlbDrop k w.asid va
  | none, none, none => s

/-- A protection fault takes its page out of the agent's caches before it is reported (13 R304). -/
def State.forgetProt (s : State) (w : Who) (f : FaultInfo) : State := if f.code = Code.xlateProt.num then s.tlbForget w f.addr else s

/-- Where the walks of an agent are counted (15 R360). -/
def Who.die (w : Who) : Nat := (w.core.map (· / 256)).getD ((w.engine.map (· / 32)).getD ((w.cluster.map dieOfCluster).getD 0))

/-- A walk starts (13 R302; 15 R360). One that its request has started already is under way: it is not counted again. -/
def State.startWalk (s : State) (w : Who) (va : Word) : State :=
  match s.asker w.waiter with
  | some m =>
    let key := (m, va.toNat / 65536)
    if s.walks.contains key then s else State.count { s with walks := key :: s.walks } (.die w.die w.region) 1 1
  | none => s.count (.die w.die w.region) 1 1

/-- A walk ends. An agent without a TLB walks again in each try of its request, as the same walk. -/
def State.endWalk (s : State) (w : Who) (va : Word) : State :=
  match s.asker w.waiter with
  | some m =>
    if w.core.isNone && w.engine.isNone && w.cluster.isNone then s
    else { s with walks := s.walks.filter (· != (m, va.toNat / 65536)) }
  | none => s

/-- The leaf of an address: cached, or walked from the binding region's effective PTROOT. A walk that an entry's line holds waits there. -/
def State.leaf (s : State) (w : Who) (va : Word) (acc : Nat) : State × Res (Word × Nat) :=
  match s.tlbLookup w va with
  | some e => (s, .ok (e.leaf, (e.size - 16) / 10))
  | none =>
    let s0 := s.startWalk w va
    let root := s.effOf w.region 5 (·.ptroot) 0
    match walk s0 w va acc root 3 with
    | .ok (e, lvl) =>
      ((s0.endWalk w va).tlbFill w ⟨w.asid, va.toNat / 2 ^ (16 + 10 * lvl), 16 + 10 * lvl, e⟩, .ok (e, lvl))
    | .fault f => (s0.endWalk w va, .fault f)
    | .held => ((walkStop s0 w va root 3).elim s0 (s0.waitAt w.waiter), .held)

/-- Whether a remote device can be reached (14 R332, R334; 15 R350). -/
def State.routed (s : State) (dev : Nat) : Bool :=
  s.service 34 && ((s.io.routes.getD dev 0).getLsbD 15) && !s.io.lostDevs.contains dev

/-- The checks made on a leaf, in the order of 13 R303. -/
def leafCheck (s : State) (w : Who) (need : Need) (va : Word) (e : Word) (sz pa : Nat) : Res Nat :=
  let prot := fun d => Res.fault (flt .xlateProt va d need.acc)
  if !frameOk (bits e.toNat 51 sz * 2 ^ sz) sz then prot 3
  else if e.getLsbD 5 && w.user then prot 4
  else if need.fut && !e.getLsbD 6 then prot 5
  else if !need.fut && need.w && !need.cells && e.getLsbD 6 then prot 5
  else if need.fut && !((!need.r || e.getLsbD 2) && (!need.w || e.getLsbD 3)) then prot 5
  else if (need.r && !e.getLsbD 2) || (need.w && !e.getLsbD 3) || (need.x && !e.getLsbD 4) then prot 1
  else
    match s.place pa with
    | .mmio => if need.mmio then .ok pa else prot 6
    | .host => if s.service 33 && (need.cells || !(need.r && need.w)) then .ok pa else prot 6
    | .remote dev =>
      if !s.routed dev then prot 6
      else match placeLocal (pa % Config.localEnd) with
        | .hbm | .pad _ _ => .ok pa
        | _ => prot 6
    | .hole => prot 3
    | .hbm | .pad _ _ | .store _ _ => .ok pa

/-- The window mapping rules of 13 R315 and the freeze rule for writes, for local scratchpads and core stores. DEDUCED (entry 42); unsafe. -/
def peerCheck (s : State) (w : Who) (need : Need) (va : Word) (pa : Nat) (byRank : Bool) : Res Nat :=
  let frozenWrite := fun k => need.writes && (s.cluster k).frozen && !(!w.user && !need.elem && s.crewRegion? k == some w.region)
  match s.place pa with
  | .pad k _ =>
    match s.crewRegion? k with
    | none => if w.own == some k then .ok pa else .fault (flt .peerGone va 0 need.acc)
    | some r =>
      if r != w.region && !byRank then .fault (flt .xlateProt va 6 need.acc)
      else if frozenWrite k then .fault (flt .peerFrozen va 0 need.acc)
      else .ok pa
  | .store n _ => if frozenWrite (n / 4) then .fault (flt .peerFrozen va 0 need.acc) else .ok pa
  | _ => .ok pa

/-- The crew aperture (05 R117): the local scratchpad byte of a rank of the span, and whether that crew has retired. -/
def aperture (s : State) (w : Who) (need : Need) (va : Word) : Res (Nat × Bool) :=
  let o := va.toNat - Config.aperture
  let r := o / Config.padSize
  match (w.span.bind s.span?).bind (fun p => p.crews[r]?) with
  | none => .fault (flt .xlateNp va 5 need.acc)
  | some cr =>
    if need.x then .fault (flt .xlateProt va 1 2)
    else if need.fut then .fault (flt .xlateProt va 5 need.acc)
    else .ok (s.ctl.devid * Config.localEnd + padAddr cr.cluster (o % Config.padSize), cr.retired)

/-- Any place will do. -/
def anyPlace : Place → Bool := fun _ => true
/-- Only this device's HBM will do. -/
def hbmOnly : Place → Bool
  | .hbm => true
  | _ => false

/-- Translation of one address for an access: 01 R35, 05 R117, 13 R302, R303, the kind of target the instruction accepts (DETAIL
6), and the peer tests, up to WSLIVE in the order of 13 R310. -/
def State.xlate (s : State) (w : Who) (need : Need) (want : Place → Bool) (va : Word) : State × Res Nat :=
  if field va 63 56 != 0 then (s, .fault (flt .xlateNp va 4 need.acc))
  else if Config.aperture ≤ va.toNat then
    match aperture s w need va with
    | .ok (pa, retired) =>
      if !want (s.place pa) then (s, .fault (flt .xlateProt va 6 need.acc))
      else if retired && (match s.place pa with | .pad k _ => w.own != some k | _ => true) then (s, .fault (flt .peerGone va 0 need.acc))
      else (s, peerCheck s w need va pa true)
    | .fault f => (s, .fault f)
    | .held => (s, .held)
  else
    match s.leaf w va need.acc with
    | (s1, .ok (e, lvl)) =>
      let sz := 16 + 10 * lvl
      let pa := bits e.toNat 51 sz * 2 ^ sz + va.toNat % 2 ^ sz
      match leafCheck s1 w need va e sz pa with
      | .ok pa =>
        if !want (s1.place pa) then (s1.tlbForget w va, .fault (flt .xlateProt va 6 need.acc))
        else match peerCheck s1 w need va pa false with
          | .fault f => (if f.code = Code.xlateProt.num then s1.tlbForget w va else s1, .fault f)
          | r => (s1, r)
      | .fault f => (s1.tlbForget w va, .fault f)
      | .held => (s1, .held)
    | (s1, .fault f) => (s1, .fault f)
    | (s1, .held) => (s1, .held)

/-- Workspace of a core-store address. -/
def wsOf (core off : Nat) : Nat := wsAddr core (off / 256 * 256)

/-- The context in whose WP a workspace is live (01 R13). -/
def State.liveIn (s : State) (wp : Nat) : Option Nat := (List.find? (fun e => e.2.wp.toNat == wp) s.ctxs).map (·.1)

/-- WSLIVE (01 R13) for n bytes of one line. DEDUCED (entry 10); unsafe. -/
def wsLiveBad (s : State) (w : Who) (need : Need) (pa n : Nat) : Option Word :=
  match s.place pa with
  | .store core off =>
    match s.liveIn (wsOf core off) with
    | none => none
    | some c => if w.ctx == some c && !(need.writes && off % 256 < 8 && n != 0) then none else some (word (wsOf core off))
  | _ => none

/-- The guard tag of a granule (03 R74). -/
def Cluster.guard (cl : Cluster) (g : Nat) : Nat := (cl.guards.getD g 0).toNat

/-- The first guarded byte among n bytes at a scratchpad offset (03 R74). -/
def guardedIn (cl : Cluster) (off : Nat) : Nat → Option Nat
  | 0 => none
  | n + 1 =>
    match cl.guard (off / 256) with
    | 3 => some off
    | 1 => if off % 256 < 32 then some off else guardedIn cl (off + 1) n
    | _ => guardedIn cl (off + 1) n

/-- The guard's answer for a write (03 R76): the distance of the first guarded byte. An atomic or LAC step is a write here whatever value it
finds. DEDUCED (entry 62); unsafe. -/
def guardBad (s : State) (need : Need) (pa n : Nat) : Option Nat :=
  if !need.writes then none
  else match s.place pa with
    | .pad k off => (guardedIn (s.cluster k) off n).map (· - off)
    | _ => none

/-- Whether the core's L1D serves a load of the line of an address (11 R261). -/
def State.inL1d (s : State) (w : Who) (need : Need) (pa : Nat) : Bool :=
  need.hit && match w.core, s.place pa with
    | some n, .hbm => ((s.core n).l1d.find? (localOf pa / 64)).isSome
    | _, _ => false

/-- ECC of an access to this device's memory (06 R128, 13 R317): the distance of the granule met. -/
def eccBad (s : State) (w : Who) (need : Need) (pa n : Nat) : Option Nat :=
  match s.place pa with
  | .hbm | .pad _ _ | .store _ _ =>
    let a := localOf pa
    if need.free || s.inL1d w need pa then none else
    let bad := (s.met w pa).bad
    let hit := if need.r && !need.blind then bad.find? (fun g => a / 8 ≤ g && g ≤ (a + n - 1) / 8) else badPartial bad a n
    hit.map (fun g => 8 * g - a / 8 * 8)
  | _ => none

/-- One part of an access, within one line: every check of 13 R310 (06 R126). -/
def State.checkPart (s : State) (w : Who) (need : Need) (want : Place → Bool) (va : Word) (n : Nat) : State × Res Nat :=
  match s.xlate w need want va with
  | (s1, .ok pa) =>
    match wsLiveBad s1 w need pa n with
    | some a => (s1, .fault (flt .wsLive a 0 need.acc))
    | none =>
      match guardBad s1 need pa n with
      | some d => (s1, .fault (flt .tileGuard (va + word d) 0 need.acc))
      | none =>
        match eccBad s1 w need pa n with
        | some d => (s1, .fault (flt .eccUncorr (word (va.toNat / 8 * 8 + d)) 0 need.acc))
        | none => (s1, .ok pa)
  | (s1, .fault f) => (s1, .fault f)
  | (s1, .held) => (s1, .held)

/-- Bytes of an access that lie in the line of its first byte. -/
def firstPart (va : Word) (n : Nat) : Nat := Nat.min n (64 - va.toNat % 64)

/-- The parts of an access, each with its physical address and length, or the first failure (06 R126). -/
def State.checkAccess (s : State) (w : Who) (need : Need) (want : Place → Bool) (va : Word) (n : Nat) : State × Res (List (Nat × Nat)) :=
  let n1 := firstPart va n
  match s.checkPart w need want va n1 with
  | (s1, .ok pa) =>
    if n1 = n then (s1, .ok [(pa, n1)])
    else
      match s1.checkPart w need want (va + word n1) (n - n1) with
      | (s2, .ok pb) => (s2, .ok [(pa, n1), (pb, n - n1)])
      | (s2, .fault f) => (s2, .fault f)
      | (s2, .held) => (s2, .held)
  | (s1, .fault f) => (s1, .fault f)
  | (s1, .held) => (s1, .held)

/-- The identity of a context's accesses. -/
def State.whoOf (s : State) (c : Nat) (x : Ctx) : Who :=
  ⟨some c, some (coreOf c), none, x.region, x.asid, x.level == .user, (s.crew? (clusterOf c)).map (·.1), none, none, none⟩

end Sys2Proof.Machine
end

