-- ==== Sys2Proof/Machine/Memops.lean ====
section
/-! DEFINITION. Accesses at their point of coherence (11 R258 to R263, R275): the store path and the L1D of a core, the steps of
home slices and banks, release and acquire, and what crosses to another device or to the host. -/
namespace Sys2Proof.Machine

/-- Whether an agent's write may be made at a line of local HBM now: no copy registration and no earlier request holds it (11 R275; 12 R298),
and the host holds no copy; a copy is snooped first (14 R337). `me` is the request. -/
def State.ownLine (s : State) (me : Option Waiter) (line : Nat) : State × Bool :=
  if s.heldAt me line then (s.waitAt me line, false)
  else if s.io.hostHolds.contains line then
    ((if s.io.snoops.contains line then s else { s with io := { s.io with snoops := line :: s.io.snoops } }).waitAt me line, false)
  else (s, true)

/-- Several lines at once: all must be free. -/
def State.ownLines (s : State) (me : Option Waiter) : List Nat → State × Bool
  | [] => (s, true)
  | l :: ls =>
    let r := s.ownLine me l
    let q := r.1.ownLines me ls
    (q.1, r.2 && q.2)

/-- Whether a read may be made at a line of local HBM now. -/
def State.readLine (s : State) (me : Option Waiter) (line : Nat) : State × Bool :=
  if s.heldAt me line then (s.waitAt me line, false) else (s, true)

/-- Several lines at once. -/
def State.readLines (s : State) (me : Option Waiter) : List Nat → State × Bool
  | [] => (s, true)
  | l :: ls =>
    let r := s.readLine me l
    let q := r.1.readLines me ls
    (q.1, r.2 && q.2)

/-- The lines of local HBM that n bytes at a physical address touch; none for other memory. -/
def State.hbmLines (s : State) (pa n : Nat) : List Nat :=
  match s.place pa with
  | .hbm => if localOf pa / 64 = (localOf pa + n - 1) / 64 then [localOf pa / 64] else [localOf pa / 64, (localOf pa + n - 1) / 64]
  | _ => []

/-- An entry of a core's store path performs at its home slice, if it can (11 R260, R275; 14 R342). -/
def State.perform (s : State) (n : Nat) (e : PathEntry) : State × Bool :=
  match s.place e.pa with
  | .hbm =>
    let a := localOf e.pa
    match s.ownLine (some (.path n)) (a / 64) with
    | (s1, false) => (s1, false)
    | (s1, true) =>
      let s2 := { s1 with waits := s1.waits.filter (fun w => w != (.path n, a / 64)) }
      if e.op.spoilt s2 a then (s2.logFabric 4 2 0 e.pa, true) else (s2.applyOp a e.op, true)
  | _ => (s, false)

/-- The wanted entries of a store path perform in order; an entry that is held holds the later entries of its line. The answer
says whether all of them performed. -/
def drainPath (n : Nat) (want : PathEntry → Bool) : List PathEntry → List Nat → State → State × List PathEntry × Bool
  | [], _, s => (s, [], true)
  | e :: l, stuck, s =>
    if want e && !stuck.contains (e.pa / 64) then
      match s.perform n e with
      | (s1, true) => drainPath n want l stuck s1
      | (s1, false) =>
        let r := drainPath n want l (e.pa / 64 :: stuck) s1
        (r.1, e :: r.2.1, false)
    else
      let r := drainPath n want l stuck s
      (r.1, e :: r.2.1, r.2.2 && !want e)

/-- Entries of a core's store path perform. -/
def State.drain (s : State) (n : Nat) (want : PathEntry → Bool) : State × Bool :=
  if (s.core n).path.isEmpty then (s, true)
  else
    let r := drainPath n want (s.core n).path [] s
    (r.1.setCore n { r.1.core n with path := r.2.1 }, r.2.2)

/-- The entries of one line perform (11 R260). -/
def State.drainLine (s : State) (n line : Nat) : State × Bool := s.drain n (fun e => e.pa / 64 == line)

/-- Whether a scope is wider than CORE. -/
def wideScope : Scope → Bool
  | .ctx => false
  | .core => false
  | .crew => true
  | .die => true
  | .pkg => true
  | .domain => true
  | .sys => true

/-- What a release of a context's instruction waits for, where there is one (11 R263): at CREW and wider, every entry that was in the core's store path
when it issued. A narrower one waits for nothing. -/
def State.release (s : State) (c : Nat) (sc : Option Scope) : State × Bool :=
  match sc with
  | none => (s, true)
  | some sc => if wideScope sc then s.drain (coreOf c) (s.before (coreOf c) (some (.ctx c))) else (s, true)

/-- What an acquire of core n does (11 R263): wider than CORE, the L1D is emptied. -/
def State.acquire (s : State) (n : Nat) (sc : Scope) : State :=
  if wideScope sc then s.setCore n { s.core n with l1d := [] } else s

/-- Bytes i to i + n - 1 of a line. -/
def lineBytes (v : BitVec 512) (i n : Nat) : List Byte := leBytes n (v.toNat / 2 ^ (8 * i))

/-- A line with bytes replaced from byte i. -/
def lineSet (v : BitVec 512) (i : Nat) (bs : List Byte) : BitVec 512 :=
  BitVec.ofNat 512 (setBits v.toNat (8 * (i + bs.length) - 1) (8 * i) (leNat bs))

/-- The line of memory. -/
def State.lineAt (s : State) (line : Nat) : BitVec 512 := BitVec.ofNat 512 (s.peek (64 * line) 64)

/-- Before a step of a context's core at n bytes of this device: earlier entries of the core for its lines have performed, and the home
slices hold the step no longer (11 R260, R265, R275; 12 R298). A step that waits comes before the entries that have entered the path since. -/
def State.reach (s : State) (core : Nat) (me : Option Waiter) (writes : Bool) (pa n : Nat) : State × Bool :=
  match s.hbmLines pa n with
  | [] => (s, true)
  | ls =>
    let r := s.drain core (fun e => ls.any (fun l => e.pa / 64 == pa / 64 - localOf pa / 64 + l) && s.before core me e)
    if r.2 then (if writes then r.1.ownLines me ls else r.1.readLines me ls) else (r.1, false)

/-- What the read of a line at its home slice, or a step there, does to the line in the core's own L1D (11 R261, R264): it leaves. -/
def State.forget (s : State) (core pa n : Nat) : State :=
  match s.place pa with
  | .hbm => s.l1dForget core (localOf pa / 64) ((localOf pa + n - 1) / 64)
  | .pad _ _ | .store _ _ | .mmio | .host | .hole | .remote _ => s

/-- Whether an address lies away from this device: at another device or at the host. -/
def State.away (s : State) (pa : Nat) : Bool :=
  match s.place pa with
  | .host | .remote _ => true
  | .hbm | .pad _ _ | .store _ _ | .mmio | .hole => false

/-- Whether an entry of a core's store path for the line of an address away from this device is unacknowledged (11 R260). -/
def State.lineBusy (s : State) (core pa : Nat) : Bool := (s.core core).path.any (fun e => e.pa / 64 == pa / 64)

/-- What a read of one part gives: bytes, or it is held, or it lies away. -/
inductive Part where
  | bytes (b : List Byte)
  | held
  | hostLine (line : Nat)
  | away
  deriving DecidableEq, Repr

/-- Read one part of a load by a core for `me`, within a line (11 R258, R261): `fresh` reads the point of coherence. A line with an error is not
kept, and neither is one for which a store of the core stands in its path, which the line does not have yet (11 R265, R268).
DESIGN CHOICE (entry 11); unsafe. -/
def State.loadPart (s : State) (core : Nat) (me : Option Waiter) (fresh : Bool) (pa n : Nat) : State × Part :=
  match s.place pa with
  | .hbm =>
    let a := localOf pa
    match (if fresh then none else (s.core core).l1d.find? (a / 64)) with
    | some v => (s, .bytes (lineBytes v (a % 64) n))
    | none =>
      match s.reach core me false pa n with
      | (s1, false) => (s1, .held)
      | (s1, true) =>
        let bs := memRead s1.mem a n
        if fresh then (s1.forget core pa n, .bytes bs)
        else
          let kept := !badIn s1.bad (a / 64 * 64) 64 && !s1.lineBusy core pa
          let s2 := if kept then s1.l1dAdd core (a / 64) (s1.lineAt (a / 64)) else s1
          (s2.count (.cluster (core / 4)) 4 1, .bytes bs)
  | .pad _ _ | .store _ _ => (s, .bytes (memRead s.mem (localOf pa) n))
  | .host =>
    if s.lineBusy core pa then (s, .held)
    else match s.io.hostCache.find? (localOf pa / 64) with
      | some v => (s, .bytes (lineBytes v (pa % 64) n))
      | none => (s, .hostLine (localOf pa / 64))
  | .remote _ => if s.lineBusy core pa then (s, .held) else (s, .away)
  | .mmio | .hole => (s, .bytes (List.replicate n 0))

/-- What a load of one or two parts gives. A part that lies away is brought by a reply, with the bytes of the other part before or after it; where
both lie away, the first is brought by itself, since its fault is the lower (06 R126); `off` is the distance of a part in a line of host memory. -/
inductive Got where
  | bytes (b : List Byte)
  | held
  | hostLine (line off : Nat)
  | away (pa len : Nat) (pre post : List Byte)
  | first (pa len : Nat)
  deriving DecidableEq, Repr

/-- A part that a reply has brought already, or its read. -/
def State.loadGot (s : State) (core : Nat) (me : Option Waiter) (fresh : Bool) (got : List (Nat × List Byte)) (pa n : Nat) : State × Part :=
  match got.find? (fun g => g.1 == pa && g.2.length == n) with
  | some g => (s, .bytes g.2)
  | none => s.loadPart core me fresh pa n

/-- Read the parts of a load; `got` holds what replies have brought. -/
def State.loadParts (s : State) (core : Nat) (me : Option Waiter) (fresh : Bool) (got : List (Nat × List Byte)) :
    List (Nat × Nat) → State × Got
  | [] => (s, .bytes [])
  | [(pa, n)] =>
    match s.loadPart core me fresh pa n with
    | (s1, .bytes b) => (s1, .bytes b)
    | (s1, .held) => (s1, .held)
    | (s1, .hostLine l) => (s1, .hostLine l 0)
    | (s1, .away) => (s1, .away pa n [] [])
  | (pa, n) :: (pb, m) :: _ =>
    match s.loadGot core me fresh got pa n with
    | (s1, .held) => (s1, .held)
    | (s1, .hostLine l) => (s1, .hostLine l 0)
    | (s1, p) =>
      match p, s1.loadGot core me fresh got pb m with
      | _, (s2, .held) => (s2, .held)
      | .away, (s2, .hostLine _) => (s2, .first pa n)
      | _, (s2, .hostLine l) => (s2, .hostLine l n)
      | .bytes b, (s2, .bytes c) => (s2, .bytes (b ++ c))
      | .bytes b, (s2, .away) => (s2, .away pb m b [])
      | _, (s2, .bytes c) => (s2, .away pa n [] c)
      | _, (s2, .away) => (s2, .first pa n)

/-- A request recorded as made to another device or to the host. -/
def State.send (s : State) (region : Nat) (user posted : Bool) (pa : Nat) (k : DxlKind) : State :=
  { s with io := { s.io with sent := s.io.sent ++ [⟨pa / Config.localEnd, region % 2 ^ 32, !user, posted, pa % Config.localEnd, k⟩] } }

/-- The first bit of a mask of two bytes, and the number of its bits. -/
def maskShape (m : Nat) : Nat × Nat :=
  (((List.range 16).find? (fun i => m.testBit i)).getD 0, ((List.range 16).filter (fun i => m.testBit i)).length)

/-- The request that an entry makes away from this device. -/
def PathOp.request (op : PathOp) : DxlKind :=
  match op with
  | .store d => .write d
  | .bits m d => .sbit (maskShape (leNat m)).1 (maskShape (leNat m)).2 (word (leNat d >>> (maskShape (leNat m)).1))
  | .lacZero => .lacZero
  | .lacAdd k x => .lacAdd k x
  | .token _ => .check 0

/-- An entry put into a core's store path, under the next number, with its effect on the core's L1D (11 R260, R261). -/
def State.enterPath (s : State) (core : Nat) (e : PathEntry) : State :=
  let k := s.core core
  let a := localOf e.pa
  let l1d :=
    match s.place e.pa with
    | .hbm =>
      match k.l1d.find? (a / 64), e.op with
      | none, _ => k.l1d
      | some v, .store d => k.l1d.insert (a / 64) (lineSet v (a % 64) d)
      | some v, .bits m d => k.l1d.insert (a / 64) (lineSet v (a % 64) (mixBytes m d (lineBytes v (a % 64) d.length)))
      | some _, .lacZero => k.l1d.erase (a / 64)
      | some _, .lacAdd _ _ => k.l1d.erase (a / 64)
      | some _, .token _ => k.l1d
    | _ => k.l1d
  s.setCore core { k with path := k.path ++ [{ e with num := k.pathNext }], pathNext := k.pathNext + 1, l1d := l1d }

/-- An atomic or a LAC operation at HBM of another device enters the core's store path until its reply (11 R260): a release waits for it,
and later accesses of the core to its line wait too. -/
def State.enterToken (s : State) (c : Nat) (core pa region : Nat) : State :=
  match placeLocal (localOf pa) with
  | .hbm => s.enterPath core ⟨pa, .token c, region, 0⟩
  | .pad _ _ | .store _ _ | .mmio | .host | .hole | .remote _ => s

/-- The operation of a context is answered, or forgotten: it leaves the store path. -/
def State.dropToken (s : State) (core c : Nat) : State :=
  if (s.core core).path.any (fun e => e.op == .token c) then
    s.setCore core { s.core core with path := (s.core core).path.filter (fun e => e.op != .token c) }
  else s

/-- Whether an operation is one of LACZ and LACA. -/
def PathOp.isLac (op : PathOp) : Bool :=
  match op with
  | .lacZero => true
  | .lacAdd _ _ => true
  | .store _ | .bits _ _ | .token _ => false

/-- Whether a part of a write lies in a scratchpad of another device, which answers it (14 R333). -/
def State.awayPad (s : State) (pa : Nat) : Bool :=
  match s.place pa, placeLocal (localOf pa) with
  | .remote _, .pad _ _ => true
  | _, _ => false

/-- One part of a write by a core (11 R258, R260; 14 R333): the bank or the core store takes it at once, the store path takes a
write to HBM, to another device's HBM and to the host, and a write to another device's scratchpad waits for its reply (true). A
LAC operation of another device waits for its reply too. -/
def State.storePart (s : State) (w : Who) (core : Nat) (pa : Nat) (op : PathOp) : State × Bool :=
  match s.place pa with
  | .pad _ _ | .store _ _ => (s.applyOp (localOf pa) op, false)
  | .hbm | .host => (s.enterPath core ⟨pa, op, w.region, 0⟩, false)
  | .remote _ =>
    if op.isLac then ((s.send w.region w.user false pa (op.request)).enterToken (w.ctx.getD 0) core pa w.region, true)
    else if s.awayPad pa then (s.send w.region w.user false pa (op.request), true)
    else ((s.send w.region w.user true pa (op.request)).enterPath core ⟨pa, op, w.region, 0⟩, false)
  | .mmio | .hole => (s, false)

/-- The parts of a write, each with its operation; the answer says whether a reply is awaited. -/
def State.storeParts (s : State) (w : Who) (core : Nat) : List (Nat × PathOp) → State × Bool
  | [] => (s, false)
  | (pa, op) :: l =>
    let r := s.storePart w core pa op
    let q := r.1.storeParts w core l
    (q.1, r.2 || q.2)

/-- The parts of a plain store. -/
def splitStore : List (Nat × Nat) → List Byte → List (Nat × PathOp)
  | [], _ => []
  | (pa, n) :: l, bs => (pa, .store (bs.take n)) :: splitStore l (bs.drop n)

/-- Bytes written by an agent without a store path, or by a step, at this device's memory. Lines have been found free. -/
def State.writeHere (s : State) (pa : Nat) (bs : List Byte) : State := s.poke (localOf pa) bs

end Sys2Proof.Machine
end

