-- ==== Sys2Proof/Machine/Queue.lean ====
section
/-! DEFINITION. Hardware queues (07 R181 to R185): one atomic step on a descriptor, its ring and its overflow queue. -/
namespace Sys2Proof.Machine

/-- A queue descriptor as read (07 R181). -/
structure QDesc where
  base : Word
  log2cap : Nat
  esz : Nat
  scope : Nat
  usable : Bool
  gen : Nat
  head : Word
  tail : Word
  limit : Nat
  ovf : Word
  deriving DecidableEq, Repr

/-- The descriptor at a physical address of local HBM. -/
def qRead (s : State) (pa : Nat) : QDesc :=
  let a := localOf pa
  let d1 := s.peek64 (a + 8)
  let d4 := s.peek64 (a + 32)
  let lg := field d1 4 0
  let clean := field d1 47 11 == 0 && field d4 63 32 == 0 && s.peek (a + 48) 16 == 0
  { base := s.peek64 a, log2cap := lg, esz := field d1 6 5, scope := field d1 9 7,
    usable := d1.getLsbD 10 && 1 ≤ lg && lg ≤ 24 && field d1 9 7 != 7 && clean,
    gen := field d1 63 48, head := s.peek64 (a + 16), tail := s.peek64 (a + 24), limit := field d4 31 0,
    ovf := s.peek64 (a + 40) }

/-- Bytes of an entry of the queue. -/
def QDesc.size (q : QDesc) : Nat := 8 * 2 ^ q.esz
/-- Entries held. -/
def QDesc.count (q : QDesc) : Nat := (q.tail - q.head).toNat
/-- Virtual address of ring entry n. -/
def QDesc.slot (q : QDesc) (n : Word) : Word := q.base + word (q.size * (n.toNat % 2 ^ q.log2cap))

/-- What a queue step answers: the value for wd (status and its bits), and the position at which an entry went, with bit 63 when
it went to the overflow queue (13 R312). -/
structure QAns where
  value : Nat
  pos : Word
  deriving DecidableEq, Repr

/-- The lines of an address forgotten by the L1D of the core whose context makes a step there (11 R264). -/
def State.forgetFor (s : State) (w : Who) (pa n : Nat) : State :=
  match w.core with
  | some c => s.forget c pa n
  | none => s

/-- Whether an agent's step at n bytes of this device can be made now: by a core's context as `State.reach` says, by any other agent when the
home slices do not hold the lines. -/
def State.stepFree (s : State) (w : Who) (writes : Bool) (pa n : Nat) : State × Bool :=
  match w.core with
  | some c => s.reach c w.waiter writes pa n
  | none => if writes then s.ownLines w.waiter (s.hbmLines pa n) else s.readLines w.waiter (s.hbmLines pa n)

/-- Where a handle's descriptor lies: alignment, translation and target of 07 R181; held while it is spilled (07 R182) or its line is. -/
def State.qFind (s : State) (w : Who) (writes : Bool) (handle : Word) : State × Res Nat :=
  let va := word (field handle 47 0)
  if field va 5 0 != 0 then (s, .fault (flt .align va 0 3))
  else match s.checkPart w Need.step hbmOnly va 64 with
    | (s1, .ok pa) =>
      if s1.spilled.contains pa then (s1.waitAt w.waiter (localOf pa / 64), .held)
      else match s1.stepFree w writes pa 64 with
        | (s2, true) => (s2.forgetFor w pa 64, .ok pa)
        | (s2, false) => (s2, .held)
    | (s1, .fault f) => (s1, .fault f)
    | (s1, .held) => (s1, .held)

/-- The steps' lines of several parts: all must be free. -/
def State.stepsFree (s : State) (w : Who) (writes : Bool) : List (Nat × Nat) → State × Bool
  | [] => (s, true)
  | (pa, n) :: l =>
    let r := s.stepFree w writes pa n
    let q := r.1.stepsFree w writes l
    (q.1.forgetFor w pa n, r.2 && q.2)

/-- What a step needs of a ring entry: both rights, whether it writes the entry or reads it (13 R303). -/
def Need.ring (writes : Bool) : Need := { Need.step with only := !writes }

/-- The parts of a ring entry, each free to be read or written in the step. -/
def State.qRing (s : State) (w : Who) (writes : Bool) (va : Word) (n : Nat) : State × Res (List (Nat × Nat)) :=
  match s.checkAccess w (Need.ring writes) anyPlace va n with
  | (s1, .ok ps) =>
    (match s1.stepsFree w writes ps with
     | (s2, true) => (s2, .ok ps)
     | (s2, false) => (s2, .held))
  | (s1, .fault f) => (s1, .fault f)
  | (s1, .held) => (s1, .held)

/-- Bytes written to the parts of a ring entry or of a buffer at this device; a part away from it has been written before the step. -/
def State.pokeParts (s : State) : List (Nat × Nat) → List Byte → State
  | [], _ => s
  | (pa, n) :: l, bs => (if s.away pa then s else s.writeHere pa (bs.take n)).pokeParts l (bs.drop n)

/-- Bytes of the parts of a ring entry or of a buffer: those of a part away from this device are what was brought. -/
def State.peekParts (s : State) (got : List (Nat × List Byte)) (ps : List (Nat × Nat)) : List Byte :=
  (ps.map (fun p =>
    if !s.away p.1 then memRead s.mem (localOf p.1) p.2
    else match got.find? (fun g => g.1 == p.1 && g.2.length == p.2) with
      | some g => g.2
      | none => List.replicate p.2 0)).flatten

/-- The entry put into the ring and TAIL advanced. -/
def State.qAppend (s : State) (w : Who) (pa : Nat) (q : QDesc) (entry : List Byte) : State × Res Unit :=
  match s.qRing w true (q.slot q.tail) q.size with
  | (s1, .ok ps) => ((s1.pokeParts ps entry).poke64 (localOf pa + 24) (q.tail + 1), .ok ())
  | (s1, .fault f) => (s1, .fault f)
  | (s1, .held) => (s1, .held)

/-- Bit 63 of an entry's first doubleword set (07 R183). -/
def markDiverted (e : List Byte) : List Byte := setAt e 7 (e.getD 7 0 ||| 0x80)

/-- An answer after an append, or its failure. -/
def qAnswer (r : State × Res Unit) (value : Nat) (pos : Word) : State × Res QAns :=
  match r with
  | (s, .ok _) => (s, .ok ⟨value, pos⟩)
  | (s, .fault f) => (s, .fault f)
  | (s, .held) => (s, .held)

/-- A fault of the queue that OVF names: what does not translate faults XLATE_PROT (07 R183); its DETAIL is entry 24's. -/
def ovfFault (f : FaultInfo) : FaultInfo :=
  if f.code = Code.xlateNp.num then { f with code := Code.xlateProt.num, detail := 6, walk := false } else f

/-- A failure of the queue that OVF names. -/
def ovfRes {α : Type} (r : State × Res α) : State × Res α :=
  match r with
  | (s, .fault f) => (s, .fault (ovfFault f))
  | (s, .ok v) => (s, .ok v)
  | (s, .held) => (s, .held)

/-- The step of ENQ on a queue found at `pa` (07 R183). -/
def State.enqAt (s : State) (w : Who) (handle : Word) (size : Nat) (entry : List Byte) (pa : Nat) : State × Res QAns :=
  let q := qRead s pa
  if !q.usable || q.gen != field handle 63 48 then (s, .ok ⟨3, 0⟩)
  else if size != q.size then (s, .fault (flt .bounds handle))
  else if q.limit != 0 && q.limit ≤ q.count then
    if q.ovf = 0 then (s, .ok ⟨1 + 512, 0⟩)
    else match ovfRes (s.qFind w true q.ovf) with
      | (s1, .ok pb) =>
        let o := qRead s1 pb
        if !o.usable || o.gen != field q.ovf 63 48 || o.size != size then (s1, .ok ⟨3 + 256, 0⟩)
        else if o.count = 2 ^ o.log2cap then (s1, .ok ⟨1 + 256, 0⟩)
        else qAnswer (ovfRes (s1.qAppend w pb o (markDiverted entry))) 2 (o.tail ||| 0x8000000000000000)
      | (s1, .fault f) => (s1, .fault f)
      | (s1, .held) => (s1, .held)
  else if q.count = 2 ^ q.log2cap then (s, .ok ⟨1, 0⟩)
  else qAnswer (s.qAppend w pa q entry) 0 q.tail

/-- Scope of a code; SYS for a code that is none. -/
def scopeOf (n : Nat) : Scope := (Scope.ofCode (BitVec.ofNat 3 n)).getD .sys

/-- ENQ with its release at the queue's SCOPE (07 R183, 11 R270), once what its ring holds away from this device has been written. -/
def State.enqHere (s : State) (w : Who) (handle : Word) (size : Nat) (entry : List Byte) : State × Res QAns :=
  match s.qFind w true handle with
  | (s1, .ok pa) =>
    match w.ctx with
    | some c =>
      match s1.release c (some (scopeOf (qRead s1 pa).scope)) with
      | (s2, true) => s2.enqAt w handle size entry pa
      | (s2, false) => (s2, .held)
    | none => s1.enqAt w handle size entry pa
  | (s1, .fault f) => (s1, .fault f)
  | (s1, .held) => (s1, .held)

/-- What DEQ answers: its status, and for OK the entry and the queue's scope. -/
inductive DeqAns where
  | stale
  | empty
  | entry (e : List Byte) (sc : Scope)
  deriving DecidableEq, Repr

/-- The step of DEQ (07 R184); `take` removes the entry, which the coordinator's look at a launch queue does not (12 R281). `got` holds what other
devices and the host have brought. -/
def State.deq (s : State) (w : Who) (got : List (Nat × List Byte)) (handle : Word) (size : Nat) (take : Bool) : State × Res DeqAns :=
  match s.qFind w take handle with
  | (s1, .ok pa) =>
    let q := qRead s1 pa
    if !q.usable || q.gen != field handle 63 48 then (s1, .ok .stale)
    else if size != q.size then (s1, .fault (flt .bounds handle))
    else if q.tail = q.head then (s1, .ok .empty)
    else match s1.qRing w false (q.slot q.head) q.size with
      | (s2, .ok ps) =>
        let e := s2.peekParts got ps
        (if take then s2.poke64 (localOf pa + 16) (q.head + 1) else s2, .ok (.entry e (scopeOf q.scope)))
      | (s2, .fault f) => (s2, .fault f)
      | (s2, .held) => (s2, .held)
  | (s1, .fault f) => (s1, .fault f)
  | (s1, .held) => (s1, .held)

/-- The ring entry that a step will write or read, with the lines of the descriptors that it uses: the queue's own, or that of the queue
which OVF names when an ENQ diverts. -/
def State.ringEntry (s : State) (w : Who) (writes : Bool) (handle : Word) (size : Nat) : Option (Word × List Nat) :=
  match s.qFind w writes handle with
  | (s1, .ok pa) =>
    let q := qRead s1 pa
    if !q.usable || q.gen != field handle 63 48 || size != q.size then none
    else if !writes then (if q.tail = q.head then none else some (q.slot q.head, [localOf pa / 64]))
    else if q.limit != 0 && q.limit ≤ q.count then
      (match if q.ovf = 0 then (s1, .held) else s1.qFind w true q.ovf with
       | (s2, .ok pb) =>
         let o := qRead s2 pb
         if !o.usable || o.gen != field q.ovf 63 48 || o.size != size || o.count = 2 ^ o.log2cap then none
         else some (o.slot o.tail, [localOf pa / 64, localOf pb / 64])
       | (_, .fault _) => none
       | (_, .held) => none)
    else if q.count = 2 ^ q.log2cap then none
    else some (q.slot q.tail, [localOf pa / 64])
  | (_, .fault _) => none
  | (_, .held) => none

/-- A part of a ring entry that lies away from this device: the entry's virtual address, the part's place in the entry, its physical address and
length, and the lines of the descriptors of the step. -/
structure RingPart where
  va : Word
  off : Nat
  pa : Nat
  len : Nat
  lines : List Nat
  deriving DecidableEq, Repr

/-- The first part of the ring entry of a context's step that lies away from this device and that no reply has answered (07 R183). The step
goes on when the answer has come, and the home slices serve no other request to those lines in between (12 R298).
DESIGN CHOICE (entry 16); unsafe. -/
def State.ringAway (s : State) (w : Who) (got : List (Nat × List Byte)) (writes : Bool) (handle : Word) (size : Nat) : Option RingPart :=
  match s.ringEntry w writes handle size with
  | none => none
  | some (va, ls) =>
    match s.checkAccess w (Need.ring writes) anyPlace va size with
    | (s1, .ok ps) =>
      (ps.find? (fun p => s1.away p.1 && !got.any (fun g => g.1 == p.1 && g.2.length == if writes then 0 else p.2))).map
        (fun p => ⟨va, if some p == ps.head? then 0 else firstPart va size, p.1, p.2, ls⟩)
    | (_, .fault _) => none
    | (_, .held) => none

/-- The lines of a step that waits for an answer: the home slices hold every other request to them (12 R298). -/
def State.lockLines (s : State) (me : Option Waiter) (ls : List Nat) : State :=
  match me with
  | some w => { s with waits := ls.map (fun l => (w, l)) ++ s.waits.filter (fun e => !(e.1 == w && ls.contains e.2)) }
  | none => s

/-- The writes of ring entries of an agent's step forgotten: the step is complete. -/
def State.ringsDone (s : State) (me : Option Waiter) : State :=
  { s with io := { s.io with rings := s.io.rings.filter (fun r => r.who != me) } }

/-- The fault that the answer to a ring entry's write brings (14 R333, R334): the target's own, at the address that failed; what the host refuses is
XLATE_PROT with DETAIL 6. -/
def RingWrite.fault (s : State) (r : RingWrite) : Option FaultInfo :=
  match r.answer with
  | some (.fault code detail off) =>
    some (if s.place r.pa = .host then flt .xlateProt r.va 6 3 else ⟨code, replyAddr code r.va off, detail, 3, false, 0⟩)
  | some (.data _) | some .here | none => none

/-- Whether a ring entry's write has been made. -/
def RingWrite.made (r : RingWrite) : Bool :=
  match r.answer with
  | some (.data _) | some .here => true
  | some (.fault _ _ _) | none => false

/-- ENQ by an agent that is no instruction (07 R183; 13 R311; 14 R341): a part of its ring entry away from this device is written first, by a request
that is answered, with the descriptors' lines held in between (14 R333). DESIGN CHOICE (entry 16); unsafe. -/
def State.enq (s : State) (w : Who) (handle : Word) (size : Nat) (entry : List Byte) : State × Res QAns :=
  let me := s.asker w.waiter
  let mine := s.io.rings.filter (fun r => r.who == me)
  match mine.findSome? (RingWrite.fault s) with
  | some f => (s.ringsDone me, .fault f)
  | none =>
    match s.ringAway w ((mine.filter RingWrite.made).map (fun r => (r.pa, []))) true handle size with
    | some r =>
      if mine.any (fun q => q.pa == r.pa) then (s, .held)
      else
        let e := if r.lines.length = 2 then markDiverted entry else entry
        let t := (s.lockLines me r.lines).send w.region w.user false r.pa (.write ((e.drop r.off).take r.len))
        ({ t with io := { t.io with rings := t.io.rings ++ [⟨me, r.va + word r.off, r.pa, r.len, none⟩] } }, .held)
    | none =>
      match s.enqHere w handle size entry with
      | (t, .held) => (t, .held)
      | (t, .ok a) => (t.ringsDone me, .ok a)
      | (t, .fault f) => (t.ringsDone me, .fault f)

end Sys2Proof.Machine
end

