-- ==== Sys2Proof/Machine/Future.lean ====
section
/-! DEFINITION. What wakes contexts: results delivered to them, future cells (07 R186 to R188), events (08 R205, R206), and the
deferral buffers (12 R298). -/
namespace Sys2Proof.Machine

/-- A bound context changed. -/
def State.modCtx (s : State) (c : Nat) (f : Ctx → Ctx) : State :=
  match s.ctx? c with
  | some x => s.setCtx c (f x)
  | none => s

/-- Parts of writes that other devices have agreed to take, and that will not be made: each device is told (06 R126; entry 63). -/
def State.forgo (s : State) (region : Nat) (user : Bool) (l : List (Nat × Nat)) : State :=
  l.foldl (fun t p => t.send region user true p.1 (.forgo p.2)) s

/-- The write of a context's instruction is not made: no other device has agreed to a part of it any more. -/
def State.giveUp (s : State) (c : Nat) : State :=
  match s.ctx? c with
  | some x => if x.granted.isEmpty then s else (s.forgo x.region (x.level == .user) x.granted).setCtx c { x with granted := [] }
  | none => s

/-- A register of a bound context written. -/
def State.writeReg (s : State) (c : Nat) (d : Reg) (v : Word) : State :=
  match s.ctx? c with
  | some x => s.setReg x d v
  | none => s

/-- A context's instruction is complete: it is READY from the next s-cycle, and not before 8 s-cycles after its issue (01 R10). -/
def State.wake (s : State) (c : Nat) : State :=
  let s1 := s.modCtx c (fun x => { x with st := .idle, mark := none })
  let k := s1.core (coreOf c)
  s1.setCore (coreOf c) { k with issueAt := k.issueAt.insert (slotOf c) (Nat.max (k.issueAt.getD (slotOf c) 0) (s.now + 1)) }

/-- A waiting LDF is answered (07 R187, R188): value, status OK, and its acquire at PKG. -/
def State.answerLdf (s : State) (v : Word) (q : Deferral) : State :=
  match s.ctx? q.ctx with
  | some x =>
    match x.st with
    | .waiting (.future d pa) =>
      if pa = q.pa then (((s.writeReg q.ctx d v).writeReg q.ctx (d + 1) 0).acquire (coreOf q.ctx) .pkg).wake q.ctx else s
    | _ => s
  | none => s

/-- Whether a deferral is an LDF at a cell: a GWAIT may be deferred at the same address (08 R204). -/
def State.ldfAt (s : State) (pa : Nat) (q : Deferral) : Bool :=
  q.pa == pa && match s.ctx? q.ctx with
    | some x =>
      (match x.st with
       | .waiting (.future _ p) => p == pa
       | _ => false)
    | none => false

/-- The step of STF at a cell (07 R188): status, and the answers in order of deferral. -/
def State.fill (s : State) (pa : Nat) (v : Word) : State × Nat :=
  let a := localOf pa
  if (s.peek64 (a + 8)).getLsbD 0 then (s, 1)
  else
    let mine := s.deferrals.filter (s.ldfAt pa)
    let s1 := (s.poke64 a v).poke64 (a + 8) 1
    (mine.foldl (fun t q => t.answerLdf v q) { s1 with deferrals := s1.deferrals.filter (fun q => !s.ldfAt pa q) }, 0)

/-- A cell's address (07 R186): alignment, future page, local HBM. -/
def State.cell (s : State) (w : Who) (need : Need) (va : Word) : State × Res Nat :=
  if field va 3 0 != 0 then (s, .fault (flt .align va 0 need.acc)) else s.checkPart w need hbmOnly va 16

/-- Event bits reach a bound context (08 R205, R206): they are ORed in, and a WAIT whose mask they meet returns. -/
def State.giveBits (s : State) (c : Nat) (bits : Word) : State :=
  match s.ctx? c with
  | some x =>
    let ev := x.events ||| bits
    match x.st with
    | .waiting (.event d mask) =>
      if ev &&& mask = 0 then s.setCtx c { x with events := ev }
      else (((s.setCtx c { x with events := ev &&& ~~~mask }).writeReg c d (ev &&& mask)).acquire (coreOf c) .pkg).wake c
    | _ => s.setCtx c { x with events := ev }
  | none => s

/-- Event bits sent by an agent of a region to a CTXID (08 R205): applied, held for a saved cluster of the region (13 R320), or
discarded. -/
def State.sendBits (s : State) (region c : Nat) (bits : Word) : State :=
  let saved := s.co.images.any (fun im => im.clusters.any (fun sc =>
    match sc.ctxs.find? c with | some x => x.region == region | none => false))
  let s1 :=
    if saved then
      { s with co := { s.co with images := s.co.images.map (fun im => { im with clusters := im.clusters.map (fun sc =>
          match sc.ctxs.find? c with
          | some x => if x.region = region then { sc with events := sc.events.insert c (sc.events.getD c 0 ||| bits) } else sc
          | none => sc) }) } }
    else s
  match s1.ctx? c with
  | some x => if x.region = region then s1.giveBits c bits else s1
  | none => s1

/-- Whether the deferral buffer of a cell's home slice has room (07 R187, 12 R298): 256 requests to each slice.
DESIGN CHOICE (entry 18); safe. -/
def State.deferRoom (s : State) (pa : Nat) : Bool :=
  s.deferrals.length < 256 ||
    (s.deferrals.filter (fun q => Config.homeSlice (q.pa / 64) == Config.homeSlice (pa / 64))).length < 256

/-- A waiting GWAIT is answered (08 R204): the phase, status OK, and its acquire at the group's scope. -/
def State.answerGwait (s : State) (phase : Word) (q : Deferral) : State :=
  match s.ctx? q.ctx with
  | some x =>
    match x.st with
    | .waiting (.phase d _ _ _) =>
      (((s.writeReg q.ctx d (phase <<< 8)).acquire (coreOf q.ctx) .crew)).wake q.ctx
    | _ => s
  | none => s

/-- Whether a deferral is a GWAIT on a descriptor (some) or on group 0 of a span. -/
def State.waitsOn (s : State) (desc : Option Nat) (span : Nat) (q : Deferral) : Bool :=
  match s.ctx? q.ctx with
  | some x =>
    match x.st with
    | .waiting (.phase _ d n _) => d == desc && (desc.isSome || n == span)
    | _ => false
  | none => false

/-- Deferrals of a context withdrawn. -/
def State.undefer (s : State) (c : Nat) : State :=
  { s with deferrals := s.deferrals.filter (fun q => q.ctx != c),
           co := { s.co with deferred0 := s.co.deferred0.filter (fun q => q.ctx != c) } }

end Sys2Proof.Machine
end

