-- ==== Sys2Proof/Machine/Crew.lean ====
section
/-! DEFINITION. Crews, spans and regions over their life: use counters and RCB fields in memory (01 R22, R23), the crew task queue
(01 R27), unbinding (05 R125), freezing (13 R315), halting an MX (07 R167), retirement (01 R21), RELEASE and HALT (13 R311, 15 R351). -/
namespace Sys2Proof.Machine

/-- STATE codes (01 R22). -/
def RegionState.code : RegionState → Nat
  | .inactive => 0
  | .active => 1
  | .preempted => 2
  | .halted => 3

/-- The oldest writes of the coordinator are made whose lines are free; the others wait, and later writes to their lines with them. The
coordinator has one place at a line (12 R298), which its last write there gives up. -/
def flushFrom : List (Nat × List Byte) → List Nat → State → State
  | [], _, s => s
  | (a, bs) :: l, stuck, s =>
    if stuck.contains (a / 64) then flushFrom l stuck { s with co := { s.co with writes := s.co.writes ++ [(a, bs)] } }
    else match s.ownLine (some .writes) (a / 64) with
      | (s1, true) =>
        let s2 := s1.poke a bs
        flushFrom l stuck (if l.any (fun e => e.1 / 64 == a / 64) then s2
          else { s2 with waits := s2.waits.filter (fun w => w != (.writes, a / 64)) })
      | (s1, false) => flushFrom l (a / 64 :: stuck) { s1 with co := { s1.co with writes := s1.co.writes ++ [(a, bs)] } }

/-- The coordinator's waiting writes are tried again. -/
def State.flushWrites (s : State) : State :=
  if s.co.writes.isEmpty then s else flushFrom s.co.writes [] { s with co := { s.co with writes := [] } }

/-- A write of the coordinator to an RCB: made at once where its line is free, else when its line is (11 R275; 14 R337). -/
def State.coWrite (s : State) (a : Nat) (bs : List Byte) : State :=
  ({ s with co := { s.co with writes := s.co.writes ++ [(a, bs)] } } : State).flushWrites

/-- A region's STATE set, in the device and in its RCB (01 R22). A region that leaves ACTIVE has no reserving launch (12 R283). -/
def State.setRegionState (s : State) (id : Nat) (st : RegionState) : State :=
  match s.region? id with
  | some r =>
    let s1 := s.setRegion { r with state := st }
    let s2 := if st = .active then s1 else { s1 with co := { s1.co with reserving := s1.co.reserving.filter (fun q => q.1 != id) } }
    s2.coWrite (r.rcb + 5) [BitVec.ofNat 8 st.code]
  | none => s

/-- Physical address of a region's RCB. -/
def State.rcbAddr (s : State) (id : Nat) : Word :=
  match s.region? id with
  | some r => word (s.ctl.devid * Config.localEnd + r.rcb)
  | none => 0

/-- The use counters of an RCB (01 R22 dw11, dw12). -/
def State.pokeUse (s : State) (r : Region) : State :=
  (s.coWrite (r.rcb + 88) (leBytes 2 r.usecl ++ leBytes 4 r.usectx)).coWrite (r.rcb + 96) (leBytes 6 r.usehbm)

/-- The counters of a region and of its ancestors changed (01 R23). -/
def State.use (s : State) (id : Nat) (f : Region → Region) : State :=
  match s.region? id with
  | some r => (s.path r).foldl (fun t q => let q' := f q; (t.setRegion q').pokeUse q') s
  | none => s

/-- HBM pages charged to a region: only if no region on the path to the root would exceed its effective HBMQ (01 R23).
DESIGN CHOICE (entry 26); safe. -/
def State.chargeHbm (s : State) (id pages : Nat) : State :=
  match s.region? id with
  | some r =>
    if r.state == .active && (s.path r).all (fun q => q.usehbm + pages ≤ s.eff q 4 (·.hbmq)) then
      s.use id (fun q => { q with usehbm := q.usehbm + pages })
    else s
  | none => s

/-- HBM pages given back by a region (01 R22). DESIGN CHOICE (entry 26); safe. -/
def State.dropHbm (s : State) (id pages : Nat) : State :=
  match s.region? id with
  | some r => if pages ≤ r.usehbm then s.use id (fun q => { q with usehbm := q.usehbm - pages }) else s
  | none => s

/-- Budget waits that end when USECL of a region on the path falls (12 R283). -/
def State.endBudgetWaits (s : State) (id : Nat) : State :=
  match s.region? id with
  | some r =>
    let ids := (s.path r).map (·.id)
    { s with co := { s.co with regions := s.co.regions.map (fun e =>
        if (s.path e.2).any (fun q => ids.contains q.id) then (e.1, { e.2 with budget := false }) else e) } }
  | none => s

/-- A region and its descendants (13 R318). -/
def State.subtree (s : State) (id : Nat) : List Region :=
  (s.co.regions.map (·.2)).filter (fun r => (s.path r).any (fun q => q.id == id))

/-- Whether a pre-emption under way holds a region: it stands in the subtree and is ACTIVE (13 R318, R319). -/
def State.quiesces (s : State) (id : Nat) : Bool :=
  s.co.preempts.any (fun j => j.started && (s.subtree j.region).any (fun r => r.id == id && r.state == .active))

/-- Whether a pre-emption has told a cluster to quiesce (13 R319). -/
def State.quiescing (s : State) (k : Nat) : Bool :=
  match s.crewRegion? k with
  | some id => s.quiesces id
  | none => false

/-- A deferral made at a home slice (12 R298). One of a context that quiesces is withdrawn as it is made: its wait is saved (13 R319). -/
def State.defer (s : State) (c pa : Nat) : State :=
  if s.quiescing (clusterOf c) then s else { s with deferrals := s.deferrals ++ [⟨c, pa⟩] }

/-- The same for a GWAIT of group 0, at the coordinator (08 R204). -/
def State.defer0 (s : State) (c : Nat) : State :=
  if s.quiescing (clusterOf c) then s else { s with co := { s.co with deferred0 := s.co.deferred0 ++ [⟨c, 0⟩] } }

/-- The first byte of the task-queue area of a scratchpad (01 R27). -/
def tqBase (qcap : Nat) : Nat := Config.padSize - (qcap * 66 + 255) / 256 * 256
/-- Address of an entry slot. -/
def tqSlot (k qcap i : Nat) : Nat := padAddr k (tqBase qcap + 64 * i)
/-- Address of a link word. -/
def tqLink (k qcap i : Nat) : Nat := padAddr k (tqBase qcap + 64 * qcap + 2 * i)
/-- Entries of all lanes. -/
def TaskQueue.total (q : TaskQueue) : Nat := q.lanes.foldl (fun n l => n + l.count) 0
/-- A lane. -/
def TaskQueue.lane (q : TaskQueue) (p : Nat) : Lane := q.lanes.getD p ⟨0, 0, 0⟩

/-- A doubleword of a record. -/
def recWord (r : List Byte) (i : Nat) : Word := word (leNat ((r.drop (8 * i)).take 8))

/-- A record pushed into the lane of its PRIO (01 R27, 07 R189); none when the queue is full. -/
def State.tqPush (s : State) (k : Nat) (r : List Byte) : Option State :=
  let cl := s.cluster k
  let q := cl.tq
  if q.qcap ≤ q.total then none
  else
    let p := field (recWord r 7) 2 0
    let ln := q.lane p
    let next := s.peek (tqLink k q.qcap q.free) 2
    let s1 := (s.poke (tqSlot k q.qcap q.free) r).poke (tqLink k q.qcap q.free) (leBytes 2 (Config.endLink q.free).toNat)
    let s2 := if ln.count = 0 then s1 else s1.poke (tqLink k q.qcap ln.tail) (leBytes 2 q.free)
    let ln' : Lane := ⟨if ln.count = 0 then q.free else ln.head, q.free, ln.count + 1⟩
    some (s2.setCluster k { cl with tq := { q with lanes := setAt q.lanes p ln', free := next } })

/-- The oldest record of a lane. -/
def State.tqHead (s : State) (k p : Nat) : List Byte :=
  let q := (s.cluster k).tq
  memRead s.mem (tqSlot k q.qcap (q.lane p).head) 64

/-- The oldest slot of a lane removed and returned to the free list (01 R27). -/
def State.tqPop (s : State) (k p : Nat) : State :=
  let cl := s.cluster k
  let q := cl.tq
  let ln := q.lane p
  let next := s.peek (tqLink k q.qcap ln.head) 2
  let s1 := s.poke (tqLink k q.qcap ln.head) (leBytes 2 q.free)
  s1.setCluster k { cl with tq := { q with lanes := setAt q.lanes p ⟨next, ln.tail, ln.count - 1⟩, free := ln.head } }

/-- The pool index of a workspace address on a core (01 R12). -/
def poolIndex (core : Nat) (wp : Word) : Option Nat :=
  match placeLocal wp.toNat with
  | .store n off => if n = core && off < Config.poolBytes then some (off / 256) else none
  | _ => none

/-- A pool workspace returned to the free map. -/
def State.freeWs (s : State) (core : Nat) (wp : Word) : State :=
  match poolIndex core wp with
  | some i => s.setCore core { s.core core with used := (s.core core).used.filter (· != i) }
  | none => s

/-- A rising list with a number put in. -/
def insertNat (n : Nat) : List Nat → List Nat
  | [] => [n]
  | m :: l => if m < n then m :: insertNat n l else if m = n then m :: l else n :: m :: l

/-- A pool workspace marked allocated. -/
def State.takeWs (s : State) (core : Nat) (wp : Word) : State :=
  match poolIndex core wp with
  | some i => s.setCore core { s.core core with used := insertNat i (s.core core).used }
  | none => s

/-- A context unbound: the slot is IDLE and USECTX falls (01 R22). Its workspace is the caller's. -/
def State.unbind (s : State) (c : Nat) : State :=
  match s.ctx? c with
  | some x => ((((((s.giveUp c).undefer c).dropWaits c).ringsDone (some (.ctx c))).dropToken (coreOf c) c).dropCtx c).use x.region (fun r => { r with usectx := r.usectx - 1 })
  | none => s

/-- Contexts bound in a cluster, rising. -/
def State.boundIn (s : State) (k : Nat) : List Nat := ((s.ctxs.map (·.1)).filter (fun c => clusterOf c == k))

/-- The delay that a timer has left (03 R78): 0 once its deadline has passed. -/
def Timer.remaining (t : Timer) (cycle : Word) : Nat :=
  let d := (t.deadline - cycle.setWidth 32).toNat
  if 2 ^ 31 < d then 0 else d

/-- Timers stopped (03 R78, 13 R315). -/
def stopTimers (cycle : Word) (ts : List Timer) : List Timer :=
  ts.map (fun t => if t.left.isSome then t else { t with left := some (t.remaining cycle) })

/-- A deadline d s-cycles from now, with 0 replaced by 1 (03 R78). -/
def deadlineAt (cycle : Word) (d : Nat) : Word32 :=
  let x := (cycle + word d).setWidth 32
  if x = 0 then 1 else x

/-- Timers started again with the delay they had left; OWNER of each OPEN header follows. A sum of 0 is replaced by 1 as at arming.
DEDUCED (entry 65); unsafe. -/
def State.startTimers (s : State) (k : Nat) : State :=
  let cl := s.cluster k
  let cy := s.cycleOf (dieOfCluster k)
  let ts := cl.timers.map (fun t => match t.left with
    | some d => { t with deadline := deadlineAt cy d, left := none }
    | none => t)
  let s1 := s.setCluster k { cl with timers := ts }
  ts.foldl (fun u t => if (cl.guard (t.hdr / 256)) = 1 then u.poke (padAddr k t.hdr + 24) (leBytes 4 t.deadline.toNat) else u) s1

/-- FREEZE (13 R315). -/
def State.freezeCrew (s : State) (k : Nat) : State :=
  let s1 := (s.boundIn k).foldl (fun t c => t.modCtx c (fun x => if x.level = .user then { x with held := true } else x)) s
  let cl := s1.cluster k
  s1.setCluster k { cl with frozen := true, timers := stopTimers (s.cycleOf (dieOfCluster k)) cl.timers }

/-- THAW of a frozen crew (13 R314). The delays that a pre-emption has saved stay saved (03 R78; 13 R319). -/
def State.thawCrew (s : State) (k : Nat) : State :=
  if (s.cluster k).frozen then
    let s1 := (s.boundIn k).foldl (fun t c => t.modCtx c (fun x => { x with held := false })) s
    let s2 := s1.setCluster k { s1.cluster k with frozen := false }
    if s2.quiescing k then s2 else s2.startTimers k
  else s

/-- A pending write lands in a register (10 R229). -/
def mixLanes (mask : BitVec 128) (i : Nat) : List Word32 → List Word32 → List Word32
  | v :: vs, o :: os => (if mask.getLsbD i then v else o) :: mixLanes mask (i + 1) vs os
  | _, _ => []

/-- A v register; 128 lanes of zero at launch (01 R34). -/
def Mx.vreg (m : Mx) (n : Nat) : List Word32 := m.v.getD n (List.replicate 128 0)

/-- A register written whole holds no error any more (13 R317). -/
def Mx.restored (m : Mx) (r : MxReg) (whole : Bool) : Mx :=
  if whole then { m with badRegs := m.badRegs.filter (· != r) } else m

/-- A pending write lands. -/
def Mx.land (m : Mx) (p : PendReg) : Mx :=
  match p with
  | .v n mask val => { m.restored (.v n) (mask == BitVec.allOnes 128) with v := m.v.insert n (mixLanes mask 0 val (m.vreg n)) }
  | .p n mask val => { m.restored (.p n) (mask == BitVec.allOnes 128) with p := m.p.insert n ((m.p.getD n 0 &&& ~~~mask) ||| (val &&& mask)) }
  | .s n val => { m.restored (.s n) true with s := m.s.insert n val }
  | .h n (some x) => { m.restored (.h n) true with h := m.h.insert n x }
  | .h n none => { m.restored (.h n) true with h := m.h.erase n }
  | .b n (some x) => { m with b := m.b.insert n x }
  | .b n none => { m with b := m.b.erase n }

/-- A pending write put behind those that land no later (10 R229). -/
def insertPend (p : Pending) : List Pending → List Pending
  | [] => [p]
  | q :: l => if p.land < q.land then p :: q :: l else q :: insertPend p l

/-- Pending writes in order of their landing bundle, then of issue (10 R229). -/
def landOrder (l : List Pending) : List Pending := l.foldl (fun acc p => insertPend p acc) []

/-- Bytes 23:22 at a header's address: FILL (07 R166). -/
def State.fillAt (s : State) (k hdr : Nat) : Nat := s.peek (padAddr k hdr + 22) 2

/-- An MX halts (10 R256, 07 R167): requests pending on its shelf complete, SEALs with HALTED; a GIVE to it is tried again and faults. -/
def State.haltMx (s : State) (k : Nat) (u : MxUnit) (landing : Bool) : State :=
  let m := s.mx k u
  let m1 := if landing then (landOrder m.pend).foldl (fun x p => x.land p.reg) m else m
  let s1 := s.setMx k u { m1 with st := .halted, pend := [], queue := [], stopping := false }
  m.queue.foldl (fun t q =>
    match q.who with
    | .context c =>
      match t.ctx? c with
      | some x =>
        match x.st with
        | .waiting (.sealing d _ _) => (t.writeReg c d (word (9 + 256 * t.fillAt k q.hdr))).wake c
        | _ => t
      | none => t
    | .timer _ => t.setCluster k { t.cluster k with timers := (t.cluster k).timers.filter (fun x => x.hdr != q.hdr) }
    | .unit v => t.setMx k v { t.mx k v with giving := none }) s1

/-- The coordinator's identity for accesses in a region's space. DEDUCED (entry 56); unsafe. -/
def regionWho (s : State) (id : Nat) (span : Option Nat) : Who := ⟨none, none, none, id, s.effOf id 5 (·.asid) 0, false, span, none, none, none⟩

/-- Whether some cluster drains operations of a span. -/
def State.drainsSpan (s : State) (n : Nat) : Bool :=
  s.clusters.any (fun e => match e.2.owner with
    | .draining m _ => m == n
    | .free | .crew _ _ => false)

/-- Spans that are over, and for which nothing drains, forgotten. -/
def State.sweepSpans (s : State) : State :=
  { s with co := { s.co with spans := s.co.spans.filter (fun p => !p.ended || s.drainsSpan p.serial) } }

/-- The release of a span's retirement (01 R21): the store paths of its crews' cores perform, if they can. -/
def State.releaseSpan (s : State) (p : Span) : State × Bool :=
  ((p.crews.map (fun c => [4 * c.cluster, 4 * c.cluster + 1, 4 * c.cluster + 2, 4 * c.cluster + 3])).flatten).foldl
    (fun acc n =>
      if (acc.1.core n).path.isEmpty then acc
      else
        let r := acc.1.drain n (fun _ => true)
        (r.1, acc.2 && r.2)) (s, true)

/-- The place that a span's retirement takes at home slices: the steps that look for crews to retire try it again (entry 55). -/
def Span.waiter (p : Span) : Waiter := .row (.crewRetirement ((p.crews.head?.map (·.cluster)).getD 0))

/-- The completion future receives the count of records, or the refusal is logged with cause 7 (01 R21); false while the step is
held. -/
def State.storeDone (s : State) (p : Span) : State × Bool :=
  if p.done = 0 then (s, true)
  else
    let me := some p.waiter
    let refuse := fun (t : State) => ((t.logDevice 7 5 (t.rcbAddr p.region) p.region).dropPlaces me, true)
    match s.cell { regionWho s p.region (some p.serial) with place := me } { r := false, w := true, fut := true } p.done with
    | (s1, .ok pa) =>
      (match s1.ownLine me (localOf pa / 64) with
       | (s2, false) => (s2, false)
       | (s2, true) =>
         match s2.fill pa (word p.records) with
         | (s3, 0) => (s3.dropPlaces me, true)
         | (s3, _) => refuse s3)
    | (s1, .fault _) => refuse s1
    | (s1, .held) => (s1, false)

/-- Span retirement (01 R21), once every crew has retired; it is tried again while its release or its store is held.
DEDUCED (entry 55); safe. -/
def State.retireSpan (s : State) (p : Span) : State :=
  if p.ended || !p.crews.all (·.retired) then s
  else match s.releaseSpan p with
    | (s1, false) => s1
    | (s1, true) =>
      match s1.storeDone p with
      | (s2, true) => (s2.setSpan { p with ended := true }).sweepSpans
      | (s2, false) => s2

/-- Parked reports of a cluster's tags discarded, each with its decrement (01 R21). -/
def State.dropParked (s : State) (k : Nat) : State :=
  let mine := s.parked.filter (fun p => p.core / 4 == k)
  mine.foldl (fun t p =>
    let g := t.tag p.core p.tag
    t.setTag p.core p.tag { g with count := g.count - 1 }) { s with parked := s.parked.filter (fun p => p.core / 4 != k) }

/-- Retirement of the crew that holds a cluster (01 R21), and of its span with its last crew. -/
def State.retireCrew (s : State) (k : Nat) : State :=
  match (s.cluster k).owner with
  | .crew n r =>
    let cl := s.cluster k
    let s1 := (s.setCluster k
      { cl with owner := .draining n r, guards := [], timers := [], tq := TaskQueue.none, handlers := [], frozen := false, notices := [],
                mx0 := { cl.mx0 with shelf := [], queue := [] }, mx1 := { cl.mx1 with shelf := [], queue := [] } }).dropParked k
    match s1.span? n with
    | some p =>
      let p' := { p with crews := p.crews.map (fun c => if c.cluster = k then { c with retired := true } else c) }
      (s1.setSpan p').retireSpan p'
    | none => s1
  | _ => s

/-- RELEASE of a crew (13 R315): contexts unbound without a write-back, task queue emptied, MX units halted, and the crew retires with
1 added to its span's records. -/
def State.releaseCrew (s : State) (k : Nat) : State :=
  match s.crew? k with
  | some (n, _) =>
    let s1 := (s.boundIn k).foldl (fun t c =>
      match t.ctx? c with
      | some x => (t.freeWs (coreOf c) x.home).unbind c
      | none => t) s
    let s2 := (s1.haltMx k .mx0 false).haltMx k .mx1 false
    let s3 := match s2.span? n with | some p => s2.setSpan { p with records := p.records + 1 } | none => s2
    s3.retireCrew k
  | none => s

/-- A saved cluster of a halted region ended as by RELEASE (13 R315, R321): its crew retires and its use ends. Its copies run on, and
are counted on no tag any more (entry 33). -/
def State.dropSaved (s : State) (id : Nat) : State :=
  let mine := fun (s : State) (sc : SavedCluster) => match sc.cl.owner with
    | .crew n _ => ((s.span? n).map (·.region)) == some id
    | _ => false
  let gone := (s.co.images.map (fun im => im.clusters.filter (mine s))).flatten
  let rest := s.co.images.map (fun im =>
    { im with clusters := im.clusters.filter (fun sc => !mine s sc), regions := im.regions.filter (fun r => r != id) })
  let loose := fun (c : CopyCmd) => c.region == id && gone.any (fun sc => sc.index == c.core / 4)
  let s1 := { s with
    co := { s.co with images := rest.filter (fun im => !im.regions.isEmpty), resumes := s.co.resumes.filter (fun q => q.1 != id) },
    engines := s.engines.map (fun e => (e.1, { e.2 with
      queue := e.2.queue.map (fun c => if loose c then { c with core := Config.cores } else c) })) }
  gone.foldl (fun t sc =>
    match sc.cl.owner with
    | .crew n r =>
      let t1 := t.use id (fun q => { q with usecl := q.usecl - 1, usectx := q.usectx - sc.ctxs.length })
      let t2 := t1.endBudgetWaits id
      match t2.span? n with
      | some p =>
        let p' := { p with records := p.records + 1,
                           crews := (List.range p.crews.length).map (fun i =>
                             let c := p.crews.getD i ⟨0, true⟩
                             if i = r then { c with retired := true } else c) }
        (t2.setSpan p').retireSpan p'
      | none => t2
    | _ => t) s1

/-- Clusters held by crews of a region. -/
def State.clustersOf (s : State) (id : Nat) : List Nat :=
  (s.clusters.map (·.1)).filter (fun k => s.crewRegion? k == some id)

/-- HALT of a region and every descendant (15 R351, 13 R311): every crew but a spared one is ended as by RELEASE. -/
def State.haltRegions (s : State) (id : Nat) (spare : Option Nat) : State :=
  (s.subtree id).foldl (fun t r =>
    let t1 := (t.clustersOf r.id).foldl (fun u k => if spare == some k then u else u.releaseCrew k) t
    let t2 := (t1.dropSaved r.id).setRegionState r.id .halted
    let co := t2.co
    { t2 with co := { co with retest := co.reserving.map (·.1),
                              launchRetry := co.launchRetry.erase r.id } }) s

/-- A fault queue that cannot be used (13 R311, R313): the crew concerned is frozen, the region and its descendants are halted, and the
log receives cause 3. -/
def State.queueUnusable (s : State) (region : Nat) (k : Option Nat) : State :=
  let s1 := match k with | some n => s.freezeCrew n | none => s
  (s1.haltRegions region k).logDevice 3 5 (s1.rcbAddr region) region

/-- A record of a crew's fault counted for its span (01 R21). -/
def State.countRecord (s : State) (k : Nat) : State :=
  match s.crew? k with
  | some (n, _) => match s.span? n with | some p => s.setSpan { p with records := p.records + 1 } | none => s
  | none => s

end Sys2Proof.Machine
end

