-- ==== Sys2Proof/Machine/Ops.lean ====
section
/-! DEFINITION. Taking an exception (13 R308 to R316; 01 R18, R32) and returning from one (08 R210); enqueuing on a fault queue. -/
namespace Sys2Proof.Machine

/-- TRAPINFO (13 R309). -/
def trapInfo (f : FaultInfo) (w : Word32) : Word :=
  word (w.toNat + f.code % 256 * 2 ^ 32 + f.detail % 256 * 2 ^ 40 + f.mrank % 1024 * 2 ^ 48 + f.acc % 4 * 2 ^ 58 +
    (if f.walk then 2 ^ 60 else 0))

/-- The PLACEMENT word written back (01 R16, R18): FRM and FFLAGS from FCSR, bits [31:11] zero. -/
def placementBack (bind2 fcsr : Word) : Nat := field bind2 3 0 + field fcsr 4 0 * 2 ^ 4 + field fcsr 6 5 * 2 ^ 9

/-- A continuation word with GEN advanced modulo 256 (01 R18). -/
def genUp (w : Word) : Word := setField w 15 8 (field w 15 8 + 1)

/-- The record that SUSP or a fault writes back (01 R18): `pc` is the PC it holds. -/
def State.backRecord (s : State) (x : Ctx) (pc : Word) (faulted : Bool) : List Byte :=
  let cw := genUp (s.contWord x)
  let cw := setField cw 3 3 0
  let cw := if faulted then setField cw 7 4 3 else cw
  let d2 := word (field x.bind2 63 32 * 2 ^ 32 + placementBack x.bind2 x.fcsr)
  ([pc, x.wp, d2, x.bind3, x.arg0, x.arg1, x.arg2, cw].map (fun v => leBytes 8 v.toNat)).flatten

/-- The bound continuation leaves its context (01 R12, R18; 05 R125): GEN advances in the workspace, and the home workspace
returns to the pool when it ends, or when another workspace is written back. DEDUCED (entry 47); unsafe. -/
def State.leave (s : State) (c : Nat) (x : Ctx) (ending : Bool) : State :=
  let s1 := s.poke64 x.wp.toNat (genUp (s.contWord x))
  let s2 := if ending || x.wp != x.home then s1.freeWs (coreOf c) x.home else s1
  s2.unbind c

/-- How a record fared on a fault queue (13 R311). -/
inductive Enqueued where
  | done (pos : Word)
  | full
  | held
  | unusable
  deriving DecidableEq, Repr

/-- A record enqueued on a region's effective fault queue (13 R311): an ENQ of 64 bytes. -/
def State.faultEnq (s : State) (w : Who) (r : List Byte) : State × Enqueued :=
  let fqh := s.effOf w.region 6 (·.fqh) 0
  if fqh = 0 then (s, .unusable)
  else match s.enq { w with user := false } fqh 64 r with
    | (s1, .ok a) =>
      match a.value % 256 with
      | 0 => (s1, .done a.pos)
      | 2 => (s1, .done a.pos)
      | 1 => (s1, .full)
      | _ => (s1, .unusable)
    | (s1, .fault _) => (s1, .unusable)
    | (s1, .held) => (s1, .held)

/-- A handler bind queued in a cluster (13 R312), whose FIFO has 256 entries: `State.handlerRoom` has found room. -/
def State.queueHandler (s : State) (k : Nat) (h : HandlerBind) : State :=
  let cl := s.cluster k
  s.setCluster k { cl with handlers := cl.handlers ++ [h] }

/-- Whether a cluster's FIFO of handler binds has a free entry (13 R312). A dispatch that binds a handler waits for one.
DEDUCED (entry 66); unsafe. -/
def State.handlerRoom (s : State) (k : Nat) : Bool := (s.cluster k).handlers.length < 256

/-- S-cycles between the tries of a full fault queue (13 R311). -/
def retryGap : Nat := 4096

/-- Dispatch of a context's fault to its region's fault queue (13 R311; 13 R316 for a double fault, which binds no handler and freezes
the crew). -/
def State.dispatch (s : State) (c : Nat) (x : Ctx) (f : FaultInfo) (w : Word32) (double : Bool) : State :=
  let r := s.backRecord x x.pc true
  let wait := fun (t : State) (next : Nat) (full : Bool) => t.modCtx c (fun y => { y with st := .waiting (.dispatch f w next full), mark := some (s.issuedAt c) })
  if !double && !s.handlerRoom (clusterOf c) then wait s s.now false
  else match s.release c (some .pkg) with
  | (s1, false) => wait s1 s.now false
  | (s1, true) =>
    match s1.faultEnq (s1.whoOf c x) r with
    | (s2, .done pos) =>
      let k := clusterOf c
      let s3 := (s2.countRecord k).leave c x false
      if double then s3 else s3.queueHandler k ⟨some c, pos, x.pc, trapInfo f w, f.addr⟩
    | (s2, .full) => wait s2 (s.now + retryGap) true
    | (s2, .held) => wait s2 s.now false
    | (s2, .unusable) => (wait s2 (s.now + retryGap) true).queueUnusable x.region (some (clusterOf c))

/-- The instruction of a context fails: no other device keeps a part of its write any more (entry 63), and it has no place among the entries of its
core's store path. -/
def State.fails (s : State) (c : Nat) : State := (s.giveUp c).modCtx c (fun y => { y with mark := none })

/-- Taking a fault (01 R18, R32; 13 R311, R316): a supervisor context writes its trap registers and goes on at TVBASE, unless its PC is
TVBASE; every other fault is dispatched. -/
def takeTrap (s : State) (c : Nat) (x : Ctx) (f : FaultInfo) (w : Word32) : State :=
  if x.level = .supervisor && x.pc != x.tvbase then
    (s.fails c).setCtx c
      { x with trappc := x.pc, trapinfo := trapInfo f w, trapaddr := f.addr, pc := x.tvbase, st := .idle, got := [], granted := [], mark := none }
  else
    let double := x.level == .supervisor
    let s1 := (s.fails c).dispatch c x f w double
    if double then s1.freezeCrew (clusterOf c) else s1

/-- The return from an exception (08 R210): the next PC. -/
def eretTarget (x : Ctx) : Word := x.trappc &&& ~~~3

end Sys2Proof.Machine
end

