-- ==== Sys2Proof/WellFormed.lean ====
section
/-! DEFINITION. Well-formedness: the field values that the encoding can hold and the spec refuses (04 R88 to R93, 06, 07 R159,
08 R192, 09 R219 to R222). -/
namespace Sys2Proof

/-- Whether CSTORE's F holds codes that the header defines (09 R219; 03 R61): EFMT of the list of 03 R73, LAYOUT 0 to 2, and SLAYOUT 0 to 5
(02 R45); every SFMT is defined (02 R46). -/
def storeCodes (e : BitVec 8) (ly : BitVec 2) (sl : BitVec 3) : Bool :=
  ((1 ≤ e && e ≤ 5) || (7 ≤ e && e ≤ 0x0A) || (0x10 ≤ e && e ≤ 0x16) || e == 0x20 || e == 0x30) && ly != 3 && sl ≤ 5

/-- Whether every operand of the instruction is one the spec defines (04 R93 step 2; 09 R222). -/
def Instr.wf (i : Instr) : Bool :=
  match i with
  | .add _ _ _ => true
  | .sub _ _ _ => true
  | .mul _ _ _ => true
  | .mulh _ _ _ => true
  | .mulhu _ _ _ => true
  | .div _ _ _ => true
  | .divu _ _ _ => true
  | .rem _ _ _ => true
  | .remu _ _ _ => true
  | .and _ _ _ => true
  | .or _ _ _ => true
  | .xor _ _ _ => true
  | .shl _ _ _ => true
  | .shr _ _ _ => true
  | .sra _ _ _ => true
  | .rot _ _ _ => true
  | .clz _ _ => true
  | .ctz _ _ => true
  | .popc _ _ => true
  | .min _ _ _ => true
  | .max _ _ _ => true
  | .minu _ _ _ => true
  | .maxu _ _ _ => true
  | .slt _ _ _ => true
  | .sltu _ _ _ => true
  | .sel _ _ _ _ => true
  | .hash _ _ _ => true
  | .crng _ _ _ => true
  | .loc _ _ _ => true
  | .peer _ _ _ => true
  | .peerWrap _ _ _ => true
  | .peerLoc _ _ => true
  | .jr _ _ => true
  | .swapws _ _ => true
  | .addi _ _ _ => true
  | .andi _ _ _ => true
  | .ori _ _ _ => true
  | .xori _ _ _ => true
  | .slti _ _ _ => true
  | .ldhi _ _ => true
  | .addpc _ _ => true
  | .shli _ _ _ => true
  | .shri _ _ _ => true
  | .srai _ _ _ => true
  | .roti _ _ _ => true
  | .bfx _ _ _ _ => true
  | .bfi _ _ _ _ => true
  | .beq _ _ _ => true
  | .bne _ _ _ => true
  | .blt _ _ _ => true
  | .bge _ _ _ => true
  | .bltu _ _ _ => true
  | .bgeu _ _ _ => true
  | .jmp _ => true
  | .call _ => true
  | .lb _ _ _ => true
  | .lbu _ _ _ => true
  | .lh _ _ _ => true
  | .lhu _ _ _ => true
  | .lw _ _ _ => true
  | .lwu _ _ _ => true
  | .ld _ _ _ => true
  | .lq d _ _ => d.extractLsb' 0 1 == 0
  | .sb _ _ _ => true
  | .sh _ _ _ => true
  | .sw _ _ _ => true
  | .sd _ _ _ => true
  | .sq d _ _ => d.extractLsb' 0 1 == 0
  | .pfl _ _ _ => true
  | .lbit _ _ _ _ _ => true
  | .sbit _ _ _ _ => true
  | .memordLb _ _ _ => true
  | .memordLbu _ _ _ => true
  | .memordLh _ _ _ => true
  | .memordLhu _ _ _ => true
  | .memordLw _ _ _ => true
  | .memordLwu _ _ _ => true
  | .memordLd _ _ _ => true
  | .memordLq d _ _ => d.extractLsb' 0 1 == 0
  | .memordSb _ _ _ => true
  | .memordSh _ _ _ => true
  | .memordSw _ _ _ => true
  | .memordSd _ _ _ => true
  | .memordSq d _ _ => d.extractLsb' 0 1 == 0
  | .amoAdd _ _ _ _ s p => p != .none || s == .ctx
  | .amoAnd _ _ _ _ s p => p != .none || s == .ctx
  | .amoOr _ _ _ _ s p => p != .none || s == .ctx
  | .amoXor _ _ _ _ s p => p != .none || s == .ctx
  | .amoMin _ _ _ _ s p => p != .none || s == .ctx
  | .amoMax _ _ _ _ s p => p != .none || s == .ctx
  | .amoMinu _ _ _ _ s p => p != .none || s == .ctx
  | .amoMaxu _ _ _ _ s p => p != .none || s == .ctx
  | .amoSwp _ _ _ _ s p => p != .none || s == .ctx
  | .amoFadd _ _ _ _ s p => p != .none || s == .ctx
  | .amocas _ _ _ _ s p => p != .none || s == .ctx
  | .fence _ p => p != .none
  | .icsync _ => true
  | .fadd _ _ _ _ _ => true
  | .fsub _ _ _ _ _ => true
  | .fmul _ _ _ _ _ => true
  | .fma _ _ _ _ _ => true
  | .fmin _ _ _ _ => true
  | .fmax _ _ _ _ => true
  | .fcmp _ _ _ _ _ => true
  | .fcvt _ _ c r => r == .dyn || c.rounds
  | .fsgn _ _ _ _ _ => true
  | .fdiv _ _ _ _ _ => true
  | .fsqrt _ _ _ _ => true
  | .frcp _ _ _ _ => true
  | .frsq _ _ _ _ => true
  | .fexp2 _ _ _ _ => true
  | .flog2 _ _ _ _ => true
  | .padd _ _ _ u s k => if k.isFloat then !u && !s else !u || s
  | .psub _ _ _ u s k => if k.isFloat then !u && !s else !u || s
  | .pmul _ _ _ u s k => if k.isFloat then !u && !s else !u || s
  | .pfma _ _ _ u s k => if k.isFloat then !u && !s else !u || s
  | .pmin _ _ _ u k => !(k.isFloat && u)
  | .pmax _ _ _ u k => !(k.isFloat && u)
  | .pdot _ _ _ u k => !(k.isFloat && u)
  | .pcvt _ _ b m => m.twoSources || b == 0
  | .pshuf _ _ _ => true
  | .pcmp _ _ _ _ _ => true
  | .lacz _ => true
  | .laca _ _ _ => true
  | .lacr _ _ => true
  | .topen _ _ _ => true
  | .trow _ _ _ _ => true
  | .telm _ _ _ _ => true
  | .tfill _ _ _ => true
  | .seal _ _ _ => true
  | .tfree _ => true
  | .thdr _ _ _ => true
  | .xcp _ _ _ => true
  | .wdq _ _ _ => true
  | .ctwait _ _ => true
  | .ctany _ _ => true
  | .ctff _ _ => true
  | .ctrd _ _ n => n.toNat ≤ 4
  | .enq _ _ _ _ => true
  | .deq _ _ _ _ => true
  | .qinfo _ _ => true
  | .ldf d _ => d.extractLsb' 0 1 == 0
  | .ldfNw d _ => d.extractLsb' 0 1 == 0
  | .stf _ _ _ => true
  | .fclr _ _ => true
  | .spawn _ _ => true
  | .spawnPeer _ _ _ => true
  | .susp _ _ => true
  | .suspRequeue _ => true
  | .endTask => true
  | .gld _ _ _ => true
  | .gldm _ _ _ _ => true
  | .gst _ _ _ _ => true
  | .garr _ _ => true
  | .gwait _ _ _ => true
  | .evsend _ _ => true
  | .wait _ _ => true
  | .yield _ => true
  | .rdsr _ _ => true
  | .wrsr _ i => i.writable
  | .trap _ => true
  | .eret => true
  | .nop => true
  | .mma _ _ t => t.isOperandB
  | .mmaz _ _ t => t.isOperandB
  | .wload _ _ => true
  | .wdrop _ => true
  | .czero _ _ _ _ => true
  | .cload _ _ => true
  | .cstore _ _ _ e ly sl _ => storeCodes e ly sl
  | .crow _ _ _ => true
  | .cput _ _ _ => true
  | .vadd _ _ _ _ _ => true
  | .vsub _ _ _ _ _ => true
  | .vmul _ _ _ _ _ => true
  | .vfma _ _ _ _ _ => true
  | .vmax _ _ _ _ _ => true
  | .vmin _ _ _ _ _ => true
  | .vabs _ _ _ _ => true
  | .vcmp _ _ _ cc k _ => cc != .un || k == .s
  | .vsel _ _ _ _ _ => true
  | .vcvt _ _ _ _ => true
  | .vreds _ _ _ _ => true
  | .vredm _ _ _ _ => true
  | .vbcast _ _ _ => true
  | .vld _ _ _ _ _ => true
  | .vst _ _ _ _ _ => true
  | .btopk _ _ _ _ => true
  | .xexp2 _ _ _ => true
  | .xlog2 _ _ _ => true
  | .xrcp _ _ _ => true
  | .xrsq _ _ _ => true
  | .xtanh _ _ _ => true
  | .xsig _ _ _ => true
  | .take _ => true
  | .give _ => true
  | .hrel _ => true
  | .sadd _ _ _ => true
  | .ssub _ _ _ => true
  | .sand _ _ _ => true
  | .sshl _ _ _ => true
  | .saddi _ _ _ => true
  | .sldi _ _ => true
  | .sld _ _ _ => true
  | .sst _ _ _ => true
  | .br _ _ => true
  | .brc _ _ _ _ => true
  | .loop _ _ _ => true
  | .drain => true
  | .signal _ _ => true
  | .halt => true
  | .snop => true
  | .hdrf _ _ _ => true
  | .pendingWriteLand _ _ => true
  | .mOpCompletion _ _ => true
  | .memoryReply _ _ => true
  | .storePathPerform _ _ => true
  | .sfuResult _ => true
  | .yieldEnd _ => true
  | .timerExpiry _ _ => true
  | .servePendingRequest _ _ => true
  | .bind _ => true
  | .handlerBind _ _ => true
  | .faultQueueRetry _ => true
  | .crewRetirement _ => true
  | .clusterDrainEnd _ => true
  | .launchSelection _ => true
  | .wdqGrant => true
  | .copyQuantum _ _ => true
  | .gldmResult _ _ => true
  | .preemptionEvent => true
  | .copyOut => true
  | .resumeCopyBack => true
  | .activate => true
  | .preempt => true
  | .resume => true
  | .haltCommand => true
  | .deactivate => true
  | .mxresume _ _ _ => true
  | .mxhalt _ _ _ => true
  | .freeze _ _ => true
  | .thaw _ _ => true
  | .release _ _ => true
  | .tlbinvPage _ _ _ => true
  | .tlbinvAsid _ _ => true
  | .tlbinvAll _ => true
  | .doorbell _ _ _ => true
  | .acq _ => true
  | .rel _ => true
  | .stage _ _ => true
  | .fabricLogClr _ _ => true
  | .identity _ _ => true
  | .certs _ _ => true
  | .attest _ _ => true
  | .fwstage _ _ => true
  | .fwcommit _ _ _ => true
  | .registerWrite _ _ _ => true
  | .powerGood => true
  | .cxlHotReset => true
  | .romCheckEnd _ => true
  | .bringUpEnd _ => true
  | .linkDown _ => true
  | .telemetryRefresh _ => true
  | .criticalTrip => true
  | .controlStateEcc _ => true
  | .fetchFill _ _ => true
  | .dxlFlitReceive _ => true
  | .remoteAccess => true
  | .postedWriteAck _ _ _ => true
  | .deviceLost _ => true
  | .workRequestPost _ _ _ => true
  | .rdmaWrite _ _ _ _ => true
  | .rdmaWriteWithImmediate _ _ _ _ _ => true
  | .rdmaRead _ _ _ _ => true
  | .send _ _ _ _ => true
  | .completionEntry _ _ _ _ => true
  | .cxlMemRead _ _ => true
  | .cxlMemWrite _ _ _ _ => true
  | .bar2Read _ _ _ => true
  | .bar2Write _ _ _ => true
  | .cxlCacheSnoop _ => true
  | .illegalWord _ => true
  | .fetchFault => true
  | .illegalBundle => true
  | .backInvalidateAnswer _ => true
  | .descriptorRefetch _ => true

/-- The same as a proposition, for statements. -/
abbrev Instr.WellFormed (i : Instr) : Prop := i.wf = true

end Sys2Proof
end

