-- ==== Sys2Proof/Machine/Operands.lean ====
section
/-! DEFINITION. How a swarm instruction runs (04 R93, 01 R10, 05 R103): the checks before it executes, what its body may end in, and the
operand forms: registers, immediates, effective addresses and bytes of memory. -/
namespace Sys2Proof.Machine

/-- How the body of an instruction ends. -/
inductive Exec where
  /-- complete: the next instruction follows -/
  | ok (s : State)
  /-- complete: a jump -/
  | jump (s : State) (pc : Word)
  /-- the effect is made, and the context waits for a reply, a result or an event -/
  | busy (s : State) (st : CtxState)
  /-- nothing is complete: the PC stays until the reply -/
  | hold (s : State) (st : CtxState)
  /-- the continuation has left its context -/
  | gone (s : State)
  /-- a fault -/
  | trap (s : State) (f : FaultInfo)

/-- The access is held where it goes, and the instruction is made again when the reply comes. DESIGN CHOICE (entry 12); safe. -/
def again (s : State) : Exec := .hold s .retry

/-- The first source register with an uncorrectable error (13 R317). -/
def badSource (s : State) (x : Ctx) (srcs : List Reg) : Option Reg :=
  srcs.find? (fun r => r != 0 && badIn s.bad (x.wp.toNat + 8 * r.toNat) 8)

/-- The checks of 04 R93 steps 2 to 4, and of 13 R317 on the registers an instruction reads: `feats` are the bits of FEAT it needs
(15 R349), `sup` marks a supervisor-only instruction. -/
def issueFault (s : State) (c : Nat) (x : Ctx) (i : Instr) (feats : List Nat) (sup : Bool) (srcs : List Reg) : Option FaultInfo :=
  if !i.wf then some (flt .illegal x.pc)
  else if !feats.all (fun b => (s.feat (dieOfCluster (clusterOf c))).getLsbD b) then some (flt .featAbsent x.pc)
  else if sup && x.level = .user then some (flt .priv x.pc)
  else match badSource s x srcs with
    | some r => some (flt .eccUncorr (x.wp + word (8 * r.toNat)) 1)
    | none => none

/-- The context after its instruction: `w` is the word, `x` the context before. One that is held keeps its place among the entries of the store path
(11 R263). -/
def finish (c : Nat) (x : Ctx) (w : Word32) : Exec → State
  | .ok s => s.modCtx c (fun y => { y with pc := x.pc + 4, st := .idle, got := [], mark := none })
  | .jump s pc => s.modCtx c (fun y => { y with pc := pc, st := .idle, got := [], mark := none })
  | .busy s st => s.modCtx c (fun y => { y with pc := x.pc + 4, st := st, got := [], mark := none })
  | .hold s st => s.modCtx c (fun y => { y with st := st, iw := w, mark := some (s.issuedAt c) })
  | .gone s => s
  | .trap s f => takeTrap s c x f w

/-- A swarm instruction in the context whose turn it is. -/
def runSwarm (i : Instr) (feats : List Nat) (sup : Bool) (srcs : List Reg) (body : Nat → Ctx → State → Exec) (s : State) :
    Host.Outcome State Fault Refusal :=
  match s.actor with
  | .context c w =>
    match s.ctx? c with
    | some x =>
      match issueFault s c x i feats sup srcs with
      | some f => .next (takeTrap s c x f w)
      | none => .next (finish c x w (body c x s))
    | none => .fault .noContext
  | _ => .fault .noContext

/-- The body of an instruction that writes one value to wd and nothing else. -/
def result (d : Reg) (f : Ctx → State → Word) (_c : Nat) (x : Ctx) (s : State) : Exec := .ok (s.setReg x d (f x s))

/-- sext16(imm16) (04 R87). -/
def sext16 (i : BitVec 16) : Word := i.signExtend 64
/-- imm16, zero-extended (04 R87). -/
def zext16 (i : BitVec 16) : Word := i.setWidth 64
/-- sext16(off16) x 4 (05 R119). -/
def branchOff (o : BitVec 16) : Word := sext16 o <<< 2
/-- sext26(off26) x 4 (05 R120). -/
def jumpOff (o : BitVec 26) : Word := o.signExtend 64 <<< 2
/-- A truth value in a register. -/
def bool64 (b : Bool) : Word := if b then 1 else 0

/-- The effective address of the I-format memory majors (06 R126). -/
def effAddr (s : State) (x : Ctx) (a : Reg) (i : BitVec 16) : Word := s.reg x a + sext16 i

/-- The wait for a reply that brings bytes to the instruction in flight. -/
def bufferWait (va : Word) (acc pa len : Nat) : CtxState := .remote ⟨0, va, acc, pa, len, [], [], .buffer, false⟩
/-- The wait of an access without a result for the reply of another device. -/
def awaited (va : Word) (acc pa len : Nat) : CtxState := .remote ⟨0, va, acc, pa, len, [], [], .nothing, false⟩

/-- Whether another device answers a part of a write: one in its scratchpad, and a LAC operation. -/
def State.answersPart (s : State) (p : Nat × PathOp) : Bool :=
  match s.place p.1 with
  | .remote _ => p.2.isLac || s.awayPad p.1
  | .hbm | .pad _ _ | .store _ _ | .mmio | .host | .hole => false

/-- The wait of a write for the first of its parts that another device answers. -/
def awaitedOf (va : Word) (acc : Nat) (ps : List (Nat × PathOp)) (s : State) : CtxState :=
  awaited va acc ((ps.find? s.answersPart).getD (0, .lacZero)).1 0

/-- The wait for a line of host memory (14 R338); `va` is the first byte of the access in the line. -/
def State.hostWait (s : State) (va : Word) (acc line : Nat) : CtxState :=
  .remote ⟨0, va, acc, s.phys (line * 64), 64, [], [], .hostLine line, false⟩

/-- Parts that cover n bytes, line by line, each checked (06 R126); at most `fuel` lines. -/
def State.checkLines (s : State) (w : Who) (need : Need) (want : Place → Bool) : Nat → Word → Nat → State × Res (List (Nat × Nat))
  | 0, _, _ => (s, .ok [])
  | fuel + 1, va, n =>
    if n = 0 then (s, .ok [])
    else
      let n1 := firstPart va n
      match s.checkPart w need want va n1 with
      | (s1, .ok pa) =>
        match s1.checkLines w need want fuel (va + word n1) (n - n1) with
        | (s2, .ok ps) => (s2, .ok ((pa, n1) :: ps))
        | r => r
      | (s1, .fault f) => (s1, .fault f)
      | (s1, .held) => (s1, .held)

/-- The parts of n bytes before the first line that fails (06 R126). -/
def State.linesBefore (s : State) (w : Who) (need : Need) (want : Place → Bool) : Nat → Word → Nat → List (Nat × Nat)
  | 0, _, _ => []
  | fuel + 1, va, n =>
    if n = 0 then []
    else
      let n1 := firstPart va n
      match s.checkPart w need want va n1 with
      | (s1, .ok pa) => (pa, n1) :: s1.linesBefore w need want fuel (va + word n1) (n - n1)
      | _ => []

/-- The bytes of parts for an instruction in flight, each read as by a plain load (06 R130); replies bring those of other devices. -/
def State.gather (s : State) (c : Nat) (x : Ctx) (va : Word) : List (Nat × Nat) → Except Exec (State × List Byte)
  | [] => .ok (s, [])
  | (pa, n) :: l =>
    let rest := fun (t : State) (b : List Byte) =>
      match t.gather c x (va + word n) l with
      | .ok (t', b') => .ok (t', b ++ b')
      | .error e => .error e
    match x.got.find? (fun g => g.1 == pa && g.2.length == n) with
    | some g => rest s g.2
    | none =>
      match s.loadPart (coreOf c) (some (.ctx c)) false pa n with
      | (s1, .bytes b) => rest s1 b
      | (s1, .held) => .error (again s1)
      | (s1, .hostLine h) => .error (.hold s1 (s1.hostWait va 0 h))
      | (s1, .away) => .error (.hold (s1.send x.region (x.level == .user) false pa (.read n)) (bufferWait va 0 pa n))

/-- The registers that the bytes of a reply give, for the accesses whose reply brings the whole effect (06 R130 to R133, R157; 07 R169). -/
def State.deliver (s : State) (c : Nat) (x : Ctx) (d : Reg) (what : RemoteWhat) (bs : List Byte) : State :=
  let n := leNat bs
  match what with
  | .load signed => s.setReg x d (if signed then sextN (8 * bs.length) n else word n)
  | .pair => (s.setReg x d (word n)).setReg x (d + 1) (word (n / 2 ^ 64))
  | .bits sh w signed => s.setReg x d (if signed then sextN w (n >>> sh) else word (bits n (sh + w - 1) sh))
  | .lacr rm =>
    let r := lacRound rm n
    (s.setReg x d (word r.1)).modCtx c (fun y => { y with fcsr := y.fcsr ||| word (r.2 % 32) })
  | .hdr i => s.setReg x d (word (n / 2 ^ (64 * i)))
  | .flags f => s.modCtx c (fun y => { y with fcsr := y.fcsr ||| word (f % 32) })
  | .status => s.setReg x d (word n)
  | .nothing | .row _ _ | .elm _ _ _ | .join | .suspend _ | .buffer | .agree _ | .written _ | .hostLine _ | .fetchLine _ => s

/-- The distance of a part of an access from its first byte. -/
def partOff (ps : List (Nat × Nat)) (pa : Nat) : Nat := ((ps.takeWhile (fun q => q.1 != pa)).map (·.2)).sum

/-- The wait for the answer to a request that tests a part of a write in another device's scratchpad, before any part of the write is made (entry
63); the virtual address of the part is the fault's. None where every such part has passed its tests. -/
def State.probe (s : State) (x : Ctx) (va : Word) (acc : Nat) (ps : List (Nat × Nat)) : Option Exec :=
  (ps.find? (fun p => s.awayPad p.1 && !x.granted.contains p)).map (fun p =>
    .hold (s.send x.region (x.level == .user) false p.1 (.check p.2))
      (.remote ⟨0, va + word (partOff ps p.1), acc, p.1, 0, [], [], .agree p.2, false⟩))

/-- A write fails in a line of its own: the lower lines in scratchpads of other devices are tested first, since the fault names the lowest that fails
(06 R126). -/
def State.failWrite (s s1 : State) (c : Nat) (x : Ctx) (need : Need) (va : Word) (n : Nat) (f : FaultInfo) : Exec :=
  (s1.probe x va need.acc (s.linesBefore (s.whoOf c x) need anyPlace 257 va n)).getD (.trap s1 f)

/-- The parts of a write made together, once each has passed its tests (06 R126; 03 R76): what another device has agreed to take it takes, and the
context waits for its answer, which is no fault any more. What it had agreed to take for other parts is given up.
DESIGN CHOICE (entry 63); unsafe. -/
def State.commit (s : State) (va : Word) (acc : Nat) (ps : List (Nat × PathOp)) (c : Nat) (x : Ctx) : State × Option CtxState :=
  let away := ps.filter (fun p => s.awayPad p.1)
  let s1 := if x.granted.isEmpty then s
    else ((s.forgo x.region (x.level == .user) (x.granted.filter (fun g => !away.any (fun p => g == (p.1, p.2.len))))).modCtx c
      (fun y => { y with granted := [] })).dropWaits c
  ((s1.storeParts (s1.whoOf c x) (coreOf c) ps).1,
    away.head?.map (fun p => .remote ⟨0, va, acc, p.1, 0, [], [], .written (away.tail.map (·.1)), false⟩))

/-- A read fails in a line of its own: the lower lines away from this device are asked first, since the fault names the lowest that fails (06
R126). -/
def State.failRead (s s1 : State) (c : Nat) (x : Ctx) (need : Need) (va : Word) (n : Nat) (f : FaultInfo) : Exec :=
  let ps := s.linesBefore (s.whoOf c x) need anyPlace 257 va n
  if !ps.any (fun p => s.away p.1) then .trap s1 f
  else match s1.gather c x va ps with
    | .error e => e
    | .ok (s2, _) => .trap s2 f

/-- n bytes that an instruction reads as by plain loads, at most 16,384 of them. -/
def State.readBytes (s : State) (c : Nat) (x : Ctx) (va : Word) (n : Nat) : Except Exec (State × List Byte) :=
  match s.checkLines (s.whoOf c x) { Need.load with hit := true } anyPlace 257 va n with
  | (s1, .ok ps) => s1.gather c x va ps
  | (s1, .fault f) => .error (s.failRead s1 c x { Need.load with hit := true } va n f)
  | (s1, .held) => .error (again s1)

/-- The release of an instruction (11 R263), where it makes one, or its wait. -/
def State.releaseThen (s : State) (c : Nat) (sc : Option Scope) (k : State → Exec) : Exec :=
  match s.release c sc with
  | (s1, true) => k s1
  | (s1, false) => again s1

end Sys2Proof.Machine
end

