-- ==== Sys2Proof/Machine/Control.lean ====
section
/-! DEFINITION. Distribution, peer addresses, control transfers and workspaces (chapter 05, R115 to R125). -/
namespace Sys2Proof.Machine

/-- One dimension of a distribution descriptor (05 R115, R116): extent, block, crews. -/
structure LocDim where
  e : Nat
  b : Nat
  p : Nat
  deriving DecidableEq, Repr

/-- The dimension a doubleword describes. -/
def locDim (w : Word) : LocDim := ⟨field w 16 0, field w 33 17, field w 42 34⟩

/-- The loop of LOC over the dimensions (05 R116): rank, rank stride, offset and offset stride, or the cause that fails. -/
def locDims (c : Word) : List Word → Nat → Nat × Nat × Nat × Nat → Except Nat (Nat × Nat × Nat × Nat)
  | [], _, acc => .ok acc
  | w :: l, k, (rank, rs, off, ls) =>
    let d := locDim w
    let ck := field c (16 * k + 15) (16 * k)
    if d.e = 0 || 65536 < d.e || d.b = 0 || d.p = 0 || 256 < d.p then .error 2
    else if d.e ≤ ck then .error 3
    else
      let g := ck / d.b % d.p
      let lc := ck / (d.b * d.p) * d.b + ck % d.b
      let lx := ceilDiv d.e (d.b * d.p) * d.b
      locDims c l (k + 1) (rank + g * rs, rs * d.p, off + lc * ls, ls * lx)

/-- LOC on a descriptor's doublewords (05 R116): the value, or its cause. -/
def locValue (dw : List Word) (c : Word) (spansize : Nat) : Except Nat Word :=
  let d0 := dw.getD 0 0
  let n := field d0 2 0
  let esz := field d0 10 8
  let dims := (dw.drop 1).take n
  if !d0.getLsbD 63 || n = 0 || 4 < n || 4 < esz || field d0 7 3 != 0 || field d0 15 11 != 0 || field d0 62 39 != 0 ||
      dims.any (fun w => field w 63 43 != 0) || (dw.drop 5).any (· != 0) then .error 2
  else match locDims c dims 0 (0, 1, 0, 1) with
    | .error k => .error k
    | .ok (rank, rs, off, _) =>
      if n < 4 && field c 63 (16 * n) != 0 then .error 3
      else if spansize < rs then .error 4
      else
        let o := field d0 38 16 + off * 2 ^ esz
        if 0x800000 < o + 2 ^ esz then .error 5 else .ok (word (rank * 2 ^ 32 + o))

/-- The doublewords of bytes. -/
def dwords (bs : List Byte) (n : Nat) : List Word := (List.range n).map (recWord bs)

/-- Rank of a context's crew, and size of its span (01 R20). -/
def State.rankOf (s : State) (c : Nat) : Nat := ((s.crew? (clusterOf c)).map (·.2)).getD 0
/-- SPANSIZE. -/
def State.spansizeOf (s : State) (c : Nat) : Nat := s.spanSize (((s.crew? (clusterOf c)).map (·.1)).getD 0)

/-- LOC (05 R116). -/
def execLoc (d a b : Reg) (s : State) : Host.Outcome State Fault Refusal :=
  runSwarm (.loc d a b) [] false [a, b] (fun c x s =>
    let idx := s.reg x b
    if field idx 63 16 != 0 then .trap s (flt .bounds idx 1)
    else
      let va := (x.dtb &&& ~~~(63 : Word)) + idx <<< 6
      match s.readBytes c x va 64 with
      | .error e => e
      | .ok (s1, bs) =>
        match locValue (dwords bs 8) (s.reg x a) (s.spansizeOf c) with
        | .error k => .trap s1 (flt .bounds va k)
        | .ok v => .busy (s1.setReg x d v) .reply) s

/-- A crew-aperture address (05 R118). -/
def peerAddr (rk off : Nat) : Word := word (Config.aperture + rk * Config.padSize + off)

/-- PEER (05 R118). Where both operands are out of range, the fault names the rank's. DEDUCED (entry 68); unsafe. -/
def execPeer (d a b : Reg) (s : State) : Host.Outcome State Fault Refusal :=
  runSwarm (.peer d a b) [] false [a, b] (fun c x s =>
    let rk := (s.reg x a).toNat
    let off := (s.reg x b).toNat
    if s.spansizeOf c ≤ rk then .trap s (flt .bounds (s.reg x a))
    else if Config.padSize ≤ off then .trap s (flt .bounds (s.reg x b))
    else .ok (s.setReg x d (peerAddr rk off))) s

/-- PEER.wrap (05 R118). -/
def execPeerWrap (d a b : Reg) (s : State) : Host.Outcome State Fault Refusal :=
  runSwarm (.peerWrap d a b) [] false [a, b] (fun c x s =>
    let n := s.spansizeOf c
    let rk := (((s.rankOf c : Int) + (s.reg x a).toInt) % (n : Int)).toNat
    let off := (s.reg x b).toNat
    if Config.padSize ≤ off then .trap s (flt .bounds (s.reg x b))
    else .ok (s.setReg x d (peerAddr rk off))) s

/-- PEER.loc (05 R118). -/
def execPeerLoc (d a : Reg) (s : State) : Host.Outcome State Fault Refusal :=
  runSwarm (.peerLoc d a) [] false [a] (fun c x s =>
    let v := s.reg x a
    if field v 63 48 != 0 || s.spansizeOf c ≤ field v 47 32 || Config.padSize ≤ field v 31 0 then .trap s (flt .bounds v)
    else .ok (s.setReg x d (peerAddr (field v 47 32) (field v 31 0)))) s

/-- The body of a conditional branch (05 R119). -/
def branch (a b : Reg) (o : BitVec 16) (taken : Word → Word → Bool) (_c : Nat) (x : Ctx) (s : State) : Exec :=
  if taken (s.reg x a) (s.reg x b) then .jump s (x.pc + branchOff o) else .ok s

/-- BEQ (05 R119). -/
def execBeq (a b : Reg) (o : BitVec 16) (s : State) : Host.Outcome State Fault Refusal :=
  runSwarm (.beq a b o) [] false [a, b] (branch a b o (fun u v => u == v)) s
/-- BNE (05 R119). -/
def execBne (a b : Reg) (o : BitVec 16) (s : State) : Host.Outcome State Fault Refusal :=
  runSwarm (.bne a b o) [] false [a, b] (branch a b o (fun u v => u != v)) s
/-- BLT (05 R119). -/
def execBlt (a b : Reg) (o : BitVec 16) (s : State) : Host.Outcome State Fault Refusal :=
  runSwarm (.blt a b o) [] false [a, b] (branch a b o (fun u v => u.slt v)) s
/-- BGE (05 R119). -/
def execBge (a b : Reg) (o : BitVec 16) (s : State) : Host.Outcome State Fault Refusal :=
  runSwarm (.bge a b o) [] false [a, b] (branch a b o (fun u v => !u.slt v)) s
/-- BLTU (05 R119). -/
def execBltu (a b : Reg) (o : BitVec 16) (s : State) : Host.Outcome State Fault Refusal :=
  runSwarm (.bltu a b o) [] false [a, b] (branch a b o (fun u v => u.ult v)) s
/-- BGEU (05 R119). -/
def execBgeu (a b : Reg) (o : BitVec 16) (s : State) : Host.Outcome State Fault Refusal :=
  runSwarm (.bgeu a b o) [] false [a, b] (branch a b o (fun u v => !u.ult v)) s

/-- JMP (05 R120). -/
def execJmp (o : BitVec 26) (s : State) : Host.Outcome State Fault Refusal :=
  runSwarm (.jmp o) [] false [] (fun _ x s => .jump s (x.pc + jumpOff o)) s
/-- CALL (05 R120). -/
def execCall (o : BitVec 26) (s : State) : Host.Outcome State Fault Refusal :=
  runSwarm (.call o) [] false [] (fun _ x s => .jump (s.setReg x 31 (x.pc + 4)) (x.pc + jumpOff o)) s
/-- JR (05 R121). -/
def execJr (d a : Reg) (s : State) : Host.Outcome State Fault Refusal :=
  runSwarm (.jr d a) [] false [a] (fun _ x s => .jump (s.setReg x d (x.pc + 4)) (s.reg x a &&& ~~~3)) s

/-- Whether an address is a workspace address of a core (05 R123). -/
def ownWorkspace (core : Nat) (t : Word) : Bool :=
  field t 7 0 == 0 && match placeLocal t.toNat with
    | .store n _ => n == core
    | _ => false

/-- SWAPWS (05 R123). DEDUCED (entry 43); unsafe. -/
def execSwapws (d a : Reg) (s : State) : Host.Outcome State Fault Refusal :=
  runSwarm (.swapws d a) [] false [a] (fun c x s =>
    let t := s.reg x a
    if !ownWorkspace (coreOf c) t then .trap s (flt .xlateProt t 6)
    else if (poolIndex (coreOf c) t).isSome && t != x.home then .trap s (flt .xlateProt t 6)
    else if t != x.wp && (s.liveIn t.toNat).isSome then .trap s (flt .wsLive t)
    else
      let y := { x with wp := t }
      let s1 := if t = x.wp then s else (s.poke64 t.toNat (s.contWord x)).setCtx c y
      .ok (s1.setReg y d x.wp)) s

end Sys2Proof.Machine
end

