-- ==== Sys2Proof/Machine/Flags.lean ====
section
/-! DEFINITION. FCSR (01 R31): the sticky flags, the rounding mode, and what floating-point instructions write. -/
namespace Sys2Proof.Machine

/-- Flags raised in the context's FCSR: NX, UF, OF, DZ, NV in bits 0 to 4. -/
def State.raise (s : State) (c flags : Nat) : State := s.modCtx c (fun x => { x with fcsr := x.fcsr ||| word (flags % 32) })

/-- FCSR.RM. -/
def Ctx.rm (x : Ctx) : Nat := field x.fcsr 6 5

/-- The rounding mode an instruction selects (06 R140). -/
def Ctx.mode (x : Ctx) (r : Rm) : Nat :=
  match r with
  | .dyn => x.rm
  | .rne => 0
  | .rtz => 1
  | .rup => 2
  | .rdn => 3

/-- A value written to FCSR: bits [6:0] only (01 R31). -/
def fcsrWrite (v : Word) : Word := v &&& 0x7F

/-- The format of a precision bit (06 R140). -/
def fmtOf (p : Prec) : Fmt := match p with | .d => fp64 | .s => fp32

/-- A register as an operand of a precision: FP32 reads bits [31:0]. -/
def fpArg (p : Prec) (v : Word) : Nat := match p with | .d => v.toNat | .s => field v 31 0

/-- A result with flags written to wd; an FP32 result has bits [63:32] zero (06 R140). -/
def flagged (d : Reg) (f : Ctx → State → Nat × Nat) (c : Nat) (x : Ctx) (s : State) : Exec :=
  let r := f x s
  .ok ((s.setReg x d (word r.1)).raise c r.2)

/-- The bits of FEAT that a precision needs: FP64 (15 R349). -/
def fpFeat (p : Prec) : List Nat := match p with | .d => [5] | .s => []

end Sys2Proof.Machine
end

