-- ==== Sys2Proof/Machine/Engines.lean ====
section
/-! DEFINITION. Completion tags (07 R174 to R177), copies (07 R171 to R174; 12 R294 to R296), and the work distributor (07 R178 to
R180; 12 R292, R293). -/
namespace Sys2Proof.Machine

/-- Whether a tag releases those that wait for it (07 R176). -/
def Tag.ready (t : Tag) : Bool := t.count == 0 || t.fault

/-- The lowest ready tag of a mask. -/
def State.readyTag (s : State) (n : Nat) (mask : Word) : Option Nat :=
  (List.range 64).find? (fun t => mask.getLsbD t && (s.tag n t).ready)

/-- The acquire of CTWAIT and CTANY (11 R270). -/
def State.tagAcquire (s : State) (n t : Nat) : State := if (s.tag n t).count = 0 then s.acquire n .sys else s

/-- The word of CTANY (07 R176). -/
def anyWord (t : Nat) (v : Word) : Word := word (t + 65536 * v.toNat)

/-- A context of core n that waits for tags, looked at again. -/
def State.tagWaiter (n : Nat) (s : State) (c : Nat) : State :=
  match s.ctx? c with
  | some x =>
    match x.st with
    | .waiting (.tag d t) =>
      if (s.tag n t).ready then (((s.setReg x d (s.tag n t).packed).tagAcquire n t).wake c) else s
    | .waiting (.anyTag d mask) =>
      match s.readyTag n mask with
      | some t => (((s.setReg x d (anyWord t (s.tag n t).packed)).tagAcquire n t).wake c)
      | none => s
    | _ => s
  | none => s

/-- Contexts that wait for tags of a core, looked at again. -/
def State.wakeTags (s : State) (n : Nat) : State :=
  ((s.ctxs.map (·.1)).filter (fun c => coreOf c == n)).foldl (fun t c => State.tagWaiter n t c) s

/-- An operation counted on a tag completes (07 R175). -/
def State.tagDown (s : State) (n t : Nat) : State :=
  let g := s.tag n t
  if Config.cores ≤ n then s else (s.setTag n t { g with count := g.count - 1 }).wakeTags n

/-- Whether a core's cluster drains (01 R21). -/
def State.drains (s : State) (n : Nat) : Bool := match (s.cluster (n / 4)).owner with | .draining _ _ => true | .free => false | .crew _ _ => false

/-- A fault report and its decrement (07 R174, 08 R200): parked while the tag's fault bit is set; discarded while the cluster drains. -/
def State.tagReport (s : State) (p : Parked) : State :=
  let g := s.tag p.core p.tag
  if Config.cores ≤ p.core then s
  else if s.drains p.core then s.tagDown p.core p.tag
  else if g.fault then { s with parked := s.parked ++ [p] }
  else (s.setTag p.core p.tag ⟨g.count - 1, true, p.fr0, p.fr1, p.fr2, p.fr3⟩).wakeTags p.core

/-- The oldest parked report of a tag lands (07 R177). -/
def State.landParked (s : State) (n t : Nat) : State :=
  match s.parked.find? (fun p => p.core == n && p.tag == t) with
  | some p => { s with parked := s.parked.erase p }.tagReport p
  | none => s

/-- A tag number in a register (07 R175). -/
def tagOperand (v : Word) (s : State) (k : Nat → Exec) : Exec := if field v 63 6 != 0 then .trap s (flt .bounds v) else k v.toNat

/-- CTWAIT (07 R176). -/
def execCtwait (d a : Reg) (s : State) : Host.Outcome State Fault Refusal :=
  runSwarm (.ctwait d a) [7] false [a] (fun c x s =>
    tagOperand (s.reg x a) s (fun t =>
      let n := coreOf c
      if (s.tag n t).ready then .ok ((s.setReg x d (s.tag n t).packed).tagAcquire n t) else .busy s (.waiting (.tag d t)))) s

/-- CTANY (07 R176). -/
def execCtany (d a : Reg) (s : State) : Host.Outcome State Fault Refusal :=
  runSwarm (.ctany d a) [7] false [a] (fun c x s =>
    let mask := s.reg x a
    let n := coreOf c
    if mask = 0 then .ok (s.setReg x d 64)
    else match s.readyTag n mask with
      | some t => .ok ((s.setReg x d (anyWord t (s.tag n t).packed)).tagAcquire n t)
      | none => .busy s (.waiting (.anyTag d mask))) s

/-- CTFF (07 R177). -/
def execCtff (d a : Reg) (s : State) : Host.Outcome State Fault Refusal :=
  runSwarm (.ctff d a) [7] false [a] (fun c x s =>
    tagOperand (s.reg x a) s (fun t =>
      let n := coreOf c
      let g := s.tag n t
      let s1 := (s.setReg x d g.packed).setTag n t ⟨g.count, false, 0, 0, 0, 0⟩
      .ok (s1.landParked n t))) s

/-- CTRD (07 R177). -/
def execCtrd (d a : Reg) (i : BitVec 3) (s : State) : Host.Outcome State Fault Refusal :=
  runSwarm (.ctrd d a i) [7] false [a] (fun c x s =>
    tagOperand (s.reg x a) s (fun t =>
      let g := s.tag (coreOf c) t
      let v := match i.toNat with
        | 0 => g.packed
        | 1 => g.fr0
        | 2 => g.fr1
        | 3 => g.fr2
        | _ => g.fr3
      .ok (s.setReg x d v))) s

/-- Whether a layout record's fields are in range (07 R171). -/
def recordOk (w : List Word) : Bool :=
  let g := fun i => w.getD i 0
  let c : CopyCmd := ⟨w, 0, 0, 0, 0, 0, false, 0, false, 0, 0, false, [], [], none, [], []⟩
  field (g 2) 2 0 ≤ 4 && field (g 2) 7 3 == 0 && field (g 2) 63 11 == 0 && 1 ≤ c.ndim && c.ndim ≤ 6 && field (g 3) 63 48 == 0 &&
  (List.range c.ndim).all (fun k => c.extent k != 0 && field (g (4 + 3 * k)) 63 32 == 0) && (w.drop 22).all (· == 0) &&
  c.total ≤ 2 ^ 48 && c.resume ≤ c.total

/-- Digits of an element number over the extents, dimension 0 first. -/
def digits : List Nat → Nat → List Nat
  | [], _ => []
  | x :: l, e => e % x :: digits l (e / x)

/-- Least and greatest of a sum of index x stride over ranges lo to hi of each dimension. -/
def spanOf : List (Nat × Nat × Int) → Int × Int
  | [] => (0, 0)
  | (lo, hi, st) :: l =>
    let r := spanOf l
    if 0 ≤ st then (r.1 + lo * st, r.2 + hi * st) else (r.1 + hi * st, r.2 + lo * st)

/-- The boxes whose union is the elements from RESUME on (11 R275): for each dimension k, those that agree with RESUME above k and pass
it at k; at k = 0 RESUME itself belongs. -/
def boxesFrom (ext dig : List Nat) (st : List Int) : List (List (Nat × Nat × Int)) :=
  (List.range ext.length).filterMap (fun k =>
    let lo := if k = 0 then dig.getD 0 0 else dig.getD k 0 + 1
    if ext.getD k 0 ≤ lo then none
    else some ((List.range ext.length).map (fun i =>
      let e := ext.getD i 0
      let d := dig.getD i 0
      if i < k then (0, e - 1, st.getD i 0) else if i = k then (lo, e - 1, st.getD i 0) else (d, d, st.getD i 0))))

/-- The lowest and highest byte that elements RESUME to T - 1 touch from a base, or none when there is no element. -/
def CopyCmd.range (c : CopyCmd) (base o : Nat) : Option (Int × Int) :=
  let ext := (List.range c.ndim).map c.extent
  let st := (List.range c.ndim).map (fun k => (c.words.getD (o + 3 * k) 0).toInt)
  if c.total ≤ c.resume then none
  else
    let bs := (boxesFrom ext (digits ext c.resume) st).map spanOf
    bs.foldl (fun (acc : Option (Int × Int)) b =>
      let lo : Int := ((c.words.getD base 0).toNat : Int) + b.1
      let hi : Int := ((c.words.getD base 0).toNat : Int) + b.2 + (c.esz : Int) - 1
      match acc with
      | none => some (lo, hi)
      | some (l, h) => some (min l lo, max h hi)) none

/-- The identity of an engine's accesses (07 R173), under the ASID register of the context that issued the copy (13 R304). -/
def CopyCmd.who (s : State) (e : Nat) (c : CopyCmd) : Who :=
  ⟨none, none, some e, c.region, c.asid, !c.supervisor, some c.span,
    if s.drains c.core then some (c.core / 4) else none, none, none⟩

/-- The physical address behind a virtual one by the region's tables alone, whatever rights its page grants; none in the aperture, and where no table
maps it. -/
def State.mapped (s : State) (w : Who) (va : Word) : Option Nat :=
  if field va 63 56 != 0 || Config.aperture ≤ va.toNat then none
  else match (s.leaf w va 0).2 with
    | .ok (e, lvl) => some (bits e.toNat 51 (16 + 10 * lvl) * 2 ^ (16 + 10 * lvl) + va.toNat % 2 ^ (16 + 10 * lvl))
    | .fault _ | .held => none

/-- The runs of lines of local HBM behind a range of virtual lines, page by page (11 R275). A page that no table maps has none.
DEDUCED (entry 14); unsafe. -/
def lineRuns (s : State) (w : Who) : Nat → Nat → Nat → List (Nat × Nat × Nat)
  | 0, _, _ => []
  | fuel + 1, v, last =>
    if last < v then []
    else
      let n := Nat.min (1024 - v % 1024) (last + 1 - v)
      let rest := lineRuns s w fuel (v + n) last
      match s.mapped w (word (64 * v)) with
      | some pa => if s.place pa = .hbm then (v, localOf pa / 64, n) :: rest else rest
      | none => rest

/-- Lines of a range of bytes as runs. -/
def CopyCmd.runs (s : State) (e : Nat) (c : CopyCmd) (r : Option (Int × Int)) : List (Nat × Nat × Nat) :=
  match r with
  | some (lo, hi) =>
    let a := lo.toNat / 64
    let b := hi.toNat / 64
    lineRuns s (c.who s e) (b / 1024 - a / 1024 + 1) a b
  | none => []

/-- The frames of 64 KiB, in any memory of any device, behind a range of bytes. -/
def framesOf (s : State) (w : Who) (need : Need) : Nat → Nat → Nat → List Nat
  | 0, _, _ => []
  | fuel + 1, v, last =>
    if last < v then []
    else
      let rest := framesOf s w need fuel (v + 1) last
      match (s.xlate w need anyPlace (word (65536 * v))).2 with
      | .ok pa => pa / 65536 :: rest
      | _ => rest

/-- Whether a copy's source and destination may share bytes: some frame backs both. -/
def CopyCmd.mayOverlap (s : State) (e : Nat) (c : CopyCmd) : Bool :=
  match c.range 0 5, c.range 1 6 with
  | some (a, b), some (p, q) =>
    let f := framesOf s (c.who s e) Need.load (b.toNat / 65536 - a.toNat / 65536 + 1) (a.toNat / 65536) (b.toNat / 65536)
    let g := framesOf s (c.who s e) Need.put (q.toNat / 65536 - p.toNat / 65536 + 1) (p.toNat / 65536) (q.toNat / 65536)
    f.any g.contains
  | _, _ => false

/-- The engine of a die with the fewest queued commands, the lowest number on a tie (07 R172). -/
def State.pickEngine (s : State) (die : Nat) : Nat :=
  (List.range 32).foldl (fun best i =>
    let e := 32 * die + i
    if (s.engine e).queue.length < (s.engine best).queue.length then e else best) (32 * die)

/-- Entries of an engine's input queue (07 R172). -/
def engineQueue : Nat := 16

/-- When a context's instruction in flight issued: the s-cycle from which its slot may issue again (01 R10). -/
def State.issueMark (s : State) (c : Nat) : Nat := (s.core (coreOf c)).issueAt.getD (slotOf c) 0

/-- Whether an XCP comes after one of this s-cycle that it must precede, at the engine named or at any of the die for a choice: it arrives in
the next s-cycle then (12 R294): the XCPs of one s-cycle come by core, and those of one core in issue order. -/
def State.xcpLate (s : State) (v : Word) (c : Nat) : Bool :=
  let es := if v.getLsbD 15 then (List.range 32).map (· + 32 * dieOfCluster (clusterOf c)) else [field v 14 8]
  es.any (fun e => match (s.engine e).latest with
    | some (t, n, i) => t == s.now && (coreOf c < n || (coreOf c == n && s.issueMark c < i))
    | none => false)

/-- The end of XCP once its record is known (07 R172; 11 R275). -/
def xcpAccept (d : Reg) (va v : Word) (dw : List Word) (c : Nat) (x : Ctx) (s : State) : Exec :=
  let t := field v 5 0
  let n := coreOf c
  let g := s.tag n t
  if !recordOk dw then .trap s (flt .bounds va)
  else if s.xcpLate v c then again s
  else if g.count = 4095 then .busy (s.setReg x d (word (6 + 256))) .reply
  else
    let e := if v.getLsbD 15 then s.pickEngine (dieOfCluster (clusterOf c)) else field v 14 8
    let en := s.engine e
    if engineQueue ≤ en.queue.length then .busy (s.setReg x d 6) .reply
    else
      let c0 : CopyCmd := ⟨dw, va, n, t, x.region, ((s.crew? (clusterOf c)).map (·.1)).getD 0, x.level == .supervisor, x.asid, false, 0, 0,
        false, [], [], none, [], []⟩
      let cmd := { c0 with next := c0.resume, lines := c0.runs s e (c0.range 1 6) }
      let s1 := (s.setEngine e { en with queue := en.queue ++ [cmd], latest := some (s.now, n, s.issueMark c) }).setTag n t { g with count := g.count + 1 }
      .busy (s1.setReg x d (word (256 * e))) .reply

/-- Where a layout record may lie, on this device or another (07 R171). DEDUCED (entry 39); unsafe. -/
def xcpWant (p : Place) : Bool :=
  match p with
  | .pad _ _ | .store _ _ | .remote _ => true
  | .hbm | .mmio | .host | .hole => false

/-- Whether the place of a part of a layout record is none for a record. -/
def xcpOutside (p : Nat × Nat) : Bool :=
  match placeLocal (localOf p.1) with
  | .pad _ _ | .store _ _ => false
  | .hbm | .mmio | .host | .hole | .remote _ => true

/-- XCP (07 R171, R172): ALIGN is tested first, and the register of the tag next. DEDUCED (entry 39); unsafe. -/
def execXcp (d a b : Reg) (s : State) : Host.Outcome State Fault Refusal :=
  runSwarm (.xcp d a b) [7] false [a, b] (fun c x s =>
    let va := s.reg x a
    let v := s.reg x b
    if va.toNat % 64 != 0 then .trap s (flt .align va)
    else if field v 7 6 != 0 || field v 63 16 != 0 then .trap s (flt .bounds v)
    else match s.checkLines (s.whoOf c x) Need.load xcpWant 4 va 256 with
      | (s1, .fault f) => .trap s1 f
      | (s1, .held) => again s1
      | (s1, .ok ps) =>
        match ps.find? xcpOutside with
        | some p =>
          let f := flt .xlateProt (va + word (partOff ps p.1)) 6
          .trap (s1.forgetProt (s.whoOf c x) f) f
        | none => s1.releaseThen c (some .sys) (fun s2 =>
            match s2.gather c x va ps with
            | .error e => e
            | .ok (s3, bs) => xcpAccept d va v ((List.range 32).map (recWord bs)) c x s3)) s

/-- How an element ends. -/
inductive ElemEnd where
  | done (s : State) (outside : List Reply)
  | stop (s : State) (dst : Bool) (f : FaultInfo)
  | wait (s : State)

/-- Bytes of a reply of 64 bytes. -/
def replyBytes (v : BitVec 512) (n : Nat) : List Byte := leBytes n v.toNat

/-- What an element needs from outside this device before it is made: bytes of a part of its source, or the tests of a part of its destination at
another device (07 R173; 14 R333). -/
structure ElemAsk where
  pa : Nat
  len : Nat
  off : Nat
  test : Bool
  deriving DecidableEq, Repr

/-- The virtual address of the part. -/
def ElemAsk.addr (a : ElemAsk) (cmd : CopyCmd) : Word := (if a.test then cmd.dst cmd.next else cmd.src cmd.next) + word a.off

/-- The request. -/
def ElemAsk.kind (a : ElemAsk) : DxlKind := if a.test then .check a.len else .read a.len

/-- Whether an address lies at another device. -/
def State.elsewhere (s : State) (pa : Nat) : Bool :=
  match s.place pa with
  | .remote _ => true
  | .hbm | .pad _ _ | .store _ _ | .mmio | .host | .hole => false

/-- Whether a part of a source stands in this device's host-line cache. -/
def State.hostCached (s : State) (pa : Nat) : Bool :=
  match s.place pa with
  | .host => (s.io.hostCache.find? (localOf pa / 64)).isSome
  | .hbm | .pad _ _ | .store _ _ | .mmio | .hole | .remote _ => false

/-- The first thing that an element still needs, with its source parts `ps` and its destination parts `qs`: the source first. -/
def State.elemNeed (s : State) (cmd : CopyCmd) (ps qs : List (Nat × Nat)) : Option ElemAsk :=
  match ps.find? (fun p => s.away p.1 && !s.hostCached p.1 && !cmd.got.any (fun g => g.1 == p.1 && g.2.length == p.2)) with
  | some p => some ⟨p.1, p.2, partOff ps p.1, false⟩
  | none => (qs.find? (fun q => s.elsewhere q.1 && !cmd.granted.contains q)).map (fun q => ⟨q.1, q.2, partOff qs q.1, true⟩)

/-- The fault that a reply brings an element: what the host refuses is XLATE_PROT with DETAIL 6 (14 R338). -/
def ElemAsk.fault (a : ElemAsk) (s : State) (cmd : CopyCmd) (code detail off : Nat) : FaultInfo :=
  let va := a.addr cmd
  let acc := if a.test then 1 else 0
  if s.place a.pa = .host then flt .xlateProt va 6 acc else ⟨code, replyAddr code va off, detail, acc, false, 0⟩

/-- The request made. That of a test carries no supervisor's right, which no copy element has at a frozen crew (13 R315). -/
def ElemAsk.send (a : ElemAsk) (s : State) (cmd : CopyCmd) : State := s.send cmd.region (!cmd.supervisor || a.test) false a.pa a.kind

/-- The element with the answer that it asked for: bytes of its source, or another device's agreement to take a part of it. -/
def ElemAsk.answered (a : ElemAsk) (cmd : CopyCmd) (bs : List Byte) : CopyCmd :=
  if a.test then { cmd with granted := cmd.granted ++ [(a.pa, a.len)], asked := none } else { cmd with got := cmd.got ++ [(a.pa, bs)], asked := none }

/-- Other devices keep nothing for an element of a copy any more (entry 63). -/
def State.forgoCopy (s : State) (cmd : CopyCmd) (keep : List (Nat × Nat)) : State :=
  s.forgo cmd.region (!cmd.supervisor) (cmd.granted.filter (fun g => !keep.contains g))

/-- How an element stands once replies have come. -/
inductive Gathered where
  | ready (cmd : CopyCmd) (outside : List Reply)
  | ask (a : ElemAsk) (cmd : CopyCmd)
  | stop (a : ElemAsk) (f : FaultInfo)

/-- The replies that answer what the element asked, in order. One that answers nothing is no reply. -/
def gatherElem (s : State) (ps qs : List (Nat × Nat)) : List Reply → CopyCmd → Gathered
  | [], cmd =>
    match s.elemNeed cmd ps qs with
    | none => .ready cmd []
    | some a => .ask a cmd
  | r :: o, cmd =>
    match s.elemNeed cmd ps qs with
    | none => .ready cmd (r :: o)
    | some a =>
      if cmd.asked != some a.pa then .ask a cmd
      else match r with
        | .fault code detail off => .stop a (a.fault s cmd code detail off)
        | .data v => gatherElem s ps qs o (a.answered cmd (replyBytes v a.len))
        | .here => if a.test then gatherElem s ps qs o (a.answered cmd []) else .ask a cmd

/-- Source bytes of an element, part by part, with what replies have brought; `old` takes bytes the copy has overwritten as they were before it
(07 R173). -/
def srcBytes (s : State) (cmd : CopyCmd) (old : Bool) : List (Nat × Nat) → List Byte
  | [] => []
  | (pa, n) :: l =>
    let bs := match cmd.got.find? (fun g => g.1 == pa && g.2.length == n) with
      | some g => g.2
      | none =>
        match s.place pa with
        | .hbm | .pad _ _ | .store _ _ =>
          let now := memRead s.mem (localOf pa) n
          if old then (List.range n).map (fun i => cmd.image.getD (pa + i) (now.getD i 0)) else now
        | .host => lineBytes ((s.io.hostCache.find? (localOf pa / 64)).getD 0) (pa % 64) n
        | .remote _ | .mmio | .hole => List.replicate n 0
    bs ++ srcBytes s cmd old l

/-- Bytes that a copy is about to overwrite, kept where source and destination may share bytes. -/
def keepOld (s : State) (cmd : CopyCmd) (pa n : Nat) : CopyCmd :=
  if cmd.overlaps then
    { cmd with image := (List.range n).foldl (fun m i =>
        match SMap.find? m (pa + i) with
        | some _ => m
        | none => SMap.insert m (pa + i) (memByte s.mem (localOf (pa + i)))) cmd.image }
  else cmd

/-- Destination parts written. A write to another device or to the host is posted: the engine keeps it until its target acknowledges it
(11 R276; 14 R333, R338). -/
def dstParts (e : Nat) (user : Bool) : List (Nat × Nat) → List Byte → State → CopyCmd → State × CopyCmd
  | [], _, s, cmd => (s, cmd)
  | (pa, n) :: l, bs, s, cmd =>
    match s.place pa with
    | .hbm | .pad _ _ | .store _ _ => dstParts e user l (bs.drop n) (s.poke (localOf pa) (bs.take n)) (keepOld s cmd pa n)
    | .host | .remote _ =>
      let s1 := s.send cmd.region user true pa (.write (bs.take n))
      dstParts e user l (bs.drop n)
        (s1.setEngine e { s1.engine e with posted := (s1.engine e).posted ++ [⟨cmd.fresh, pa, n⟩] }) cmd
    | .mmio | .hole => dstParts e user l (bs.drop n) s cmd

/-- Element `cmd.next` of a copy (07 R173): both ends are checked before anything is written, at another device by a request that is answered, and what
that device has agreed to take it takes (14 R333; entry 63). DESIGN CHOICE (entry 22); safe. -/
def elemStep (e : Nat) (s : State) (cmd : CopyCmd) (outside : List Reply) : ElemEnd × CopyCmd :=
  let w := cmd.who s e
  let src := cmd.src cmd.next
  let dst := cmd.dst cmd.next
  match s.checkAccess w Need.load anyPlace src cmd.esz with
  | (s1, .fault f) => (.stop s1 false f, cmd)
  | (s1, .held) => (.wait s1, cmd)
  | (s1, .ok ps) =>
    match s1.checkAccess w Need.element anyPlace dst cmd.esz with
    | (s2, .fault f) => (.stop s2 true f, cmd)
    | (s2, .held) => (.wait s2, cmd)
    | (s2, .ok qs) =>
      let lines := (qs.map (fun q => s2.hbmLines q.1 q.2)).flatten
      let held := lines.filter s2.io.hostHolds.contains
      if !held.isEmpty then
        (.wait { s2 with io := { s2.io with snoops := (held.filter (fun l => !s2.io.snoops.contains l)) ++ s2.io.snoops } }, cmd)
      else match gatherElem s2 ps qs outside cmd with
        | .stop a f => (.stop (s2.forgetProt w f) a.test f, cmd)
        | .ask a cmd1 =>
          if cmd1.asked = some a.pa then (.wait s2, cmd1)
          else (.wait (a.send s2 cmd1), { cmd1 with asked := some a.pa })
        | .ready cmd1 o =>
          let bs := srcBytes s2 cmd1 (cmd1.overlaps && Config.overlapOld cmd1.fresh cmd1.next) ps
          let r := dstParts e w.user qs bs s2 cmd1
          (.done (r.1.forgoCopy cmd1 qs) o, { r.2 with next := cmd1.next + 1, asked := none, got := [], granted := [] })

/-- How a quantum ends. -/
inductive QuantumEnd where
  | more
  | finished
  | stopped (dst : Bool) (f : FaultInfo)
  deriving DecidableEq, Repr

/-- Up to `fuel` elements. -/
def runElems (e : Nat) : Nat → State → CopyCmd → List Reply → State × CopyCmd × QuantumEnd
  | 0, s, cmd, _ => (s, cmd, if cmd.total ≤ cmd.next then .finished else .more)
  | fuel + 1, s, cmd, o =>
    if cmd.total ≤ cmd.next then (s, cmd, .finished)
    else match elemStep e s cmd o with
      | (.done s1 o1, cmd1) => runElems e fuel s1 cmd1 o1
      | (.wait s1, cmd1) => (s1, cmd1, .more)
      | (.stop s1 dst f, cmd1) => (s1, cmd1, .stopped dst f)

/-- The first number after `last`, else the lowest, of a list (12 R282, R295). -/
def nextAfter (last : Nat) (l : List Nat) : Option Nat :=
  let least := fun (q : List Nat) => q.foldl (fun (m : Option Nat) n => some (match m with | none => n | some k => Nat.min k n)) none
  match least (l.filter (fun n => last < n)) with
  | some n => some n
  | none => least l

/-- Reports that an engine holds (07 R174), with those that wait for acknowledgements. -/
def State.parkedOf (s : State) (e : Nat) : Nat :=
  let held := (s.co.images.map (fun im => (im.clusters.map (·.parked)).flatten)).flatten
  ((s.parked ++ held).filter (fun p => p.engine == some e)).length + ((s.engine e).ending.filter (·.report.isSome)).length

/-- Commands an engine may run in the next quantum: begun ones, and new ones while it holds fewer than 4 reports (12 R296); those of a
pre-empted region keep their place. While a region quiesces, an element that waits for its answer is finished, and no more (13 R319). -/
def State.runnable (s : State) (e : Nat) : List CopyCmd :=
  (s.engine e).queue.filter (fun c => (c.begun || s.parkedOf e < 4) && ((s.region? c.region).map (·.state)) != some .preempted &&
    (!s.quiesces c.region || c.asked.isSome))

/-- The region of the next quantum, and the engine's shares after the choice (12 R295). -/
def State.chooseRegion (s : State) (e : Nat) : Option (Nat × Engine) :=
  let en := s.engine e
  let rs := (s.runnable e).map (·.region)
  let en1 := if en.round = 0 then
      { en with round := 256, credits := ((en.queue.map (·.region)).foldl (fun m r => SMap.insert m r (s.effOf r 3 (·.ceshare) 0)) []) }
    else en
  let rich := rs.filter (fun r => en1.credits.getD r 0 != 0)
  match nextAfter en1.last rich with
  | some r => some (r, { en1 with last := r, round := en1.round - 1, credits := en1.credits.insert r (en1.credits.getD r 0 - 1) })
  | none =>
    match nextAfter en1.last rs with
    | some r => some (r, { en1 with last := r, round := en1.round - 1 })
    | none => none

/-- The words of the report of a stopped copy (07 R174). -/
def stopWords (e : Nat) (cmd : CopyCmd) (dst : Bool) (f : FaultInfo) : Word × Word × Word × Word :=
  (word (f.code + (if dst then 256 else 0) + 512 * e), f.addr, word cmd.next, cmd.addr)

/-- The tag's decrement at the end of a copy, with the report of a stop (07 R173, R174). -/
def State.reportEnd (s : State) (e : Nat) (q : Ending) : State :=
  match q.report with
  | none => s.tagDown q.core q.tag
  | some (a, b, c, d) => s.tagReport ⟨some e, q.core, q.tag, a, b, c, d⟩

/-- The copies of an engine that have ended, and whose writes are acknowledged, complete in order (11 R276). -/
def State.endCopies (s : State) (e : Nat) : State :=
  let en := s.engine e
  let ready := fun (q : Ending) => !en.posted.any (fun p => p.copy == q.copy)
  (en.ending.filter ready).foldl (fun t q => t.reportEnd e q) (s.setEngine e { en with ending := en.ending.filter (fun q => !ready q) })

/-- A copy ends or stops: it leaves the queue, and completes once its writes are acknowledged (11 R276; 12 R296). -/
def State.endCopy (s0 : State) (e i : Nat) (cmd : CopyCmd) (report : Option (Word × Word × Word × Word)) : State :=
  let s := s0.forgoCopy cmd []
  let en := s.engine e
  (s.setEngine e { en with queue := dropAt en.queue i, ending := en.ending ++ [⟨cmd.fresh, cmd.core, cmd.tag, report⟩] }).endCopies e

/-- The command that a region's quantum runs: the one begun, or its oldest (12 R295). -/
def pickCommand (l : List CopyCmd) (r : Nat) (run : CopyCmd → Bool) : Option Nat :=
  match indexOf? (fun c => c.region == r && c.begun) l with
  | some i => some i
  | none => indexOf? (fun c => c.region == r && run c) l

/-- COPY_QUANTUM (07 R173; 12 R295, R296). `outside` are the replies of other devices and of the host, in order. -/
def execCopyQuantum (e : Nat) (outside : List Reply) (s : State) : Host.Outcome State Fault Refusal :=
  match s.chooseRegion e with
  | none => .next s
  | some (r, en) =>
    match pickCommand en.queue r (fun c => c.begun || s.parkedOf e < 4) with
    | none => .next s
    | some i =>
      match en.queue[i]? with
      | none => .next s
      | some cmd =>
        let s0 := s.setEngine e en
        let cmd0 := if cmd.begun then cmd else { cmd with begun := true, fresh := s.freeUse, overlaps := cmd.mayOverlap s e }
        let s1 := { s0 with freeUse := if cmd.begun then s.freeUse else s.freeUse + 1 }
        let q := runElems e (if s.quiesces cmd.region then 1 else 1024) s1 cmd0 outside
        let s2 := q.1.count (.die (e / 32) cmd.region) 7 1
        let en2 := s2.engine e
        .next (State.flushWrites (match q.2.2 with
          | .more => s2.setEngine e { en2 with queue := setAt en2.queue i q.2.1 }
          | .finished => s2.endCopy e i q.2.1 none
          | .stopped dst f => (s2.count (.die (e / 32) cmd.region) 8 1).endCopy e i q.2.1 (some (stopWords e q.2.1 dst f))))

/-- Queries that a die's distributor holds (12 R292). -/
def State.queriesOf (s : State) (die : Nat) : Nat :=
  (s.co.queries.filter (fun q => !q.sent && dieOfCluster (clusterOf q.ctx) == die)).length

/-- Queries that the coordinator holds, with those on their way to it (12 R292). -/
def State.queriesSent (s : State) : Nat := (s.co.queries.filter (·.sent)).length

/-- Up to `n` of a die's queries, oldest first, leave its distributor while the coordinator has room for them. -/
def sendQueries (now die : Nat) : Nat → Nat → List Query → List Query
  | _, _, [] => []
  | n, room, q :: l =>
    if n = 0 || room = 0 then q :: l
    else if !q.sent && dieOfCluster (clusterOf q.ctx) = die then
      { q with sent := true, arrive := now + 60 } :: sendQueries now die (n - 1) (room - 1) l
    else q :: sendQueries now die n room l

/-- The distributors forward up to 4 queries each in an s-cycle to the coordinator, which holds 4,096 (12 R292). DEDUCED (entry 69); unsafe. -/
def State.forwardQueries (s : State) : State :=
  if s.co.queries.all (·.sent) then s
  else (List.range 4).foldl (fun t d =>
    { t with co := { t.co with queries := sendQueries t.now d 4 (4096 - t.queriesSent) t.co.queries } }) s

/-- Where the slot of a WDQ may lie (07 R180): the crew's own scratchpad. -/
def wdqWant (c : Nat) (p : Place) : Bool :=
  match p with
  | .pad k _ => k == clusterOf c
  | .hbm | .store _ _ | .mmio | .host | .hole | .remote _ => false

/-- WDQ (07 R180; 12 R292). DEDUCED (entry 39); unsafe. -/
def execWdq (d a b : Reg) (s : State) : Host.Outcome State Fault Refusal :=
  runSwarm (.wdq d a b) [7] false [a, b] (fun c x s =>
    let va := s.reg x a
    let v := s.reg x b
    if field v 63 6 != 0 then .trap s (flt .bounds v)
    else if va.toNat % 8 != 0 then .trap s (flt .align va 0 1)
    else match s.checkPart (s.whoOf c x) Need.put (wdqWant c) va 8 with
      | (s1, .fault f) => .trap s1 f
      | (s1, .held) => again s1
      | (s1, .ok pa) =>
        let n := coreOf c
        let t := v.toNat
        let g := s1.tag n t
        if g.count = 4095 then .busy (s1.setReg x d (word (6 + 256))) .reply
        else if 1024 ≤ s1.queriesOf (dieOfCluster (clusterOf c)) then again s1
        else
          let q : Query := ⟨c, ((s1.crew? (clusterOf c)).map (·.1)).getD 0, s1.rankOf c, t, localOf pa, s1.now + 60, false, x.level == .supervisor⟩
          let s2 := (s1.setTag n t { g with count := g.count + 1 })
          .busy ({ s2 with co := { s2.co with queries := s2.co.queries ++ [q] } }.setReg x d 0) .reply) s

/-- Points of a grid inside the box of side 2^j at a corner. -/
def pointsIn (e b : Nat × Nat × Nat) (j : Nat) : Nat :=
  let f := fun (x y : Nat) => Nat.min x (y + 2 ^ j) - y
  f e.1 b.1 * f e.2.1 b.2.1 * f e.2.2 b.2.2

/-- The corner of child m of a box of side 2^(j+1) (07 R179: code bit NDIM j + k is bit j of ck). -/
def childOf (b : Nat × Nat × Nat) (j m : Nat) : Nat × Nat × Nat :=
  let f := fun (k y : Nat) => if m.testBit k then y + 2 ^ j else y
  (f 0 b.1, f 1 b.2.1, f 2 b.2.2)

/-- The child that holds the n-th point, and the point's place in it. -/
def findChild (e b : Nat × Nat × Nat) (j : Nat) : List Nat → Nat → Nat × Nat
  | [], n => (0, n)
  | m :: l, n =>
    let p := pointsIn e (childOf b j m) j
    if n < p then (m, n) else findChild e b j l (n - p)

/-- The n-th point of a grid in Morton order (07 R179). -/
def mortonPoint (ndim : Nat) (e : Nat × Nat × Nat) : Nat → Nat × Nat × Nat → Nat → Nat × Nat × Nat
  | 0, b, _ => b
  | j + 1, b, n => let r := findChild e b j (List.range (2 ^ ndim)) n; mortonPoint ndim e j (childOf b j r.1) r.2

/-- The coordinate word of point n, or the end token (07 R179). -/
def gridWord (g : Option (Nat × Nat × Nat × Nat × Nat)) (n : Nat) : Word :=
  match g with
  | none => BitVec.allOnes 64
  | some (nd, order, e0, e1, e2) =>
    if e0 * e1 * e2 ≤ n then BitVec.allOnes 64
    else
      let q0 := n % e0
      let q1 := n / e0 % e1
      let q2 := n / (e0 * e1)
      let c := match order with
        | 0 => (q0, q1, q2)
        | 1 => ((if (q1 + q2) % 2 = 0 then q0 else e0 - 1 - q0), (if q2 % 2 = 0 then q1 else e1 - 1 - q1), q2)
        | _ => mortonPoint nd (e0, e1, e2) 16 (0, 0, 0) n
      word (c.1 + c.2.1 * 2 ^ 16 + c.2.2 * 2 ^ 32)

/-- Whether query p is granted before query q (07 R179). -/
def Query.before (p q : Query) : Bool :=
  p.arrive < q.arrive || (p.arrive == q.arrive && (p.rank < q.rank || (p.rank == q.rank && p.ctx < q.ctx)))

/-- The query granted next: arrived, and before every other. -/
def State.nextQuery (s : State) : Option Query :=
  (s.co.queries.filter (fun q => q.sent && q.arrive ≤ s.now)).foldl (fun (m : Option Query) q =>
    match m with
    | none => some q
    | some p => some (if q.before p then q else p)) none

/-- Whether a result that was asked for earlier may land in a scratchpad now: no guard covers its bytes (03 R76), and a frozen crew takes it only for
a supervisor context (13 R315). DEDUCED (entry 23); unsafe. -/
def Cluster.takes (cl : Cluster) (sup : Bool) (off n : Nat) : Bool := (guardedIn cl off n).isNone && (!cl.frozen || sup)

/-- The answer stored to a query's slot: dropped when its crew has retired (12 R293), or when its scratchpad refuses it. -/
def State.storeAnswer (s : State) (q : Query) (v : Word) : State :=
  match placeLocal q.slot with
  | .pad k off =>
    if s.crew? k = some (q.span, q.rank) && (s.cluster k).takes q.sup off 8 then s.poke64 q.slot v else s
  | .hbm | .store _ _ | .mmio | .host | .hole | .remote _ => s

/-- WDQ grants that the coordinator has made in this s-cycle (12 R293). -/
def State.grantsNow (s : State) : Nat := if s.co.grants.1 = s.now then s.co.grants.2 else 0

/-- WDQ_GRANT (07 R179; 12 R293): one grant at the coordinator, which makes up to 4 of them in an s-cycle. -/
def execWdqGrant (s : State) : Host.Outcome State Fault Refusal :=
  match (if s.grantsNow < 4 then s.nextQuery else none) with
  | none => .next s
  | some q =>
    let s1 := { s with co := { s.co with queries := s.co.queries.erase q, grants := (s.now, s.grantsNow + 1) } }
    let r := match s1.span? q.span with
      | some p =>
        let v := gridWord p.grid p.grant
        (s1.setSpan { p with grant := p.grant + 1 }, v)
      | none => (s1, (BitVec.allOnes 64 : Word))
    .next ((r.1.storeAnswer q r.2).tagDown (coreOf q.ctx) q.tag)

end Sys2Proof.Machine
end

