-- ==== Sys2Proof/Decode.lean ====
section
/-! DEFINITION. Decoding and encoding of swarm words (04 R85 to R93, 05 to 08) and of MX bundles (09 R212 to R222). -/
namespace Sys2Proof

/-- Why bits are no instruction (04 R93 step 2, 09 R222). -/
inductive Reject where
  | unassigned    -- major, function or opcode without an instruction
  | badField      -- a must-be-zero field, or a code that the instruction does not define
  | illFormed     -- operands that the instruction does not accept
  | badLine       -- a malformed MX line or bundle
  deriving DecidableEq, Repr

/-- The fields of a swarm word in the R format (04 R85); imm16 is b, m and f together, off26 all but the major. -/
structure Fields where
  maj : BitVec 6
  d : Reg
  a : Reg
  b : Reg
  m : BitVec 5
  f : BitVec 6
  deriving DecidableEq, Repr

/-- The fields of a word. -/
def fieldsOf (w : Word32) : Fields :=
  ⟨w.extractLsb' 26 6, w.extractLsb' 21 5, w.extractLsb' 16 5, w.extractLsb' 11 5, w.extractLsb' 6 5, w.extractLsb' 0 6⟩

/-- The word of the fields. -/
def wordOf (x : Fields) : Word32 := x.maj ++ x.d ++ x.a ++ x.b ++ x.m ++ x.f

/-- imm16 and off16 (04 R85). -/
def immOf (x : Fields) : BitVec 16 := x.b ++ x.m ++ x.f

/-- off26. -/
def offOf (x : Fields) : BitVec 26 := x.d ++ x.a ++ x.b ++ x.m ++ x.f

/-- Fields of an I or B format word. -/
def immFields (maj : BitVec 6) (d a : Reg) (i : BitVec 16) : Fields :=
  ⟨maj, d, a, i.extractLsb' 11 5, i.extractLsb' 6 5, i.extractLsb' 0 6⟩

/-- Fields of a J format word. -/
def offFields (maj : BitVec 6) (i : BitVec 26) : Fields :=
  ⟨maj, i.extractLsb' 21 5, i.extractLsb' 16 5, i.extractLsb' 11 5, i.extractLsb' 6 5, i.extractLsb' 0 6⟩

/-- imm16 of SHIFTI (04 R89). -/
def shiftImm (op : BitVec 2) (n : BitVec 6) : BitVec 16 := op ++ (0 : BitVec 8) ++ n

/-- imm16 of BITF (04 R89). -/
def bitfImm (op : BitVec 1) (w l : BitVec 6) : BitVec 16 := op ++ (0 : BitVec 3) ++ w ++ l

/-- An instruction, unless a field that must be zero is not. -/
def need (c : Bool) (i : Instr) : Except Reject Instr := if c then .ok i else .error .badField

/-- An instruction whose codes are all defined, under the must-be-zero condition. -/
def coded (c : Bool) (i : Option Instr) : Except Reject Instr :=
  match c, i with
  | true, some i => .ok i
  | _, _ => .error .badField

/-- Modifier field: r : Rm, p : Prec. -/
def fpMod (r : Rm) (p : Prec) : BitVec 5 := (0 : BitVec 1) ++ r.code ++ p.code
/-- The modifier read back. -/
def fpMod? (m : BitVec 5) : Option (Rm × Prec) :=
  if m.getLsbD 4 then none else
  match Rm.ofCode (m.extractLsb' 1 3), Prec.ofCode (m.extractLsb' 0 1) with
  | some r, some p => some (r, p)
  | _, _ => none

/-- Modifier field: p : Prec. -/
def precMod (p : Prec) : BitVec 5 := (0 : BitVec 4) ++ p.code
/-- The modifier read back. -/
def precMod? (m : BitVec 5) : Option (Prec) :=
  if m.extractLsb' 1 4 == 0 then Prec.ofCode (m.extractLsb' 0 1) else none

/-- Modifier field: c : CmpOp, p : Prec. -/
def cmpMod (c : CmpOp) (p : Prec) : BitVec 5 := (0 : BitVec 1) ++ c.code ++ p.code
/-- The modifier read back. -/
def cmpMod? (m : BitVec 5) : Option (CmpOp × Prec) :=
  if m.getLsbD 4 then none else
  match CmpOp.ofCode (m.extractLsb' 1 3), Prec.ofCode (m.extractLsb' 0 1) with
  | some r, some p => some (r, p)
  | _, _ => none

/-- Modifier field: o : SgnOp, p : Prec. -/
def sgnMod (o : SgnOp) (p : Prec) : BitVec 5 := (0 : BitVec 1) ++ o.code ++ p.code
/-- The modifier read back. -/
def sgnMod? (m : BitVec 5) : Option (SgnOp × Prec) :=
  if m.getLsbD 4 then none else
  match SgnOp.ofCode (m.extractLsb' 1 3), Prec.ofCode (m.extractLsb' 0 1) with
  | some r, some p => some (r, p)
  | _, _ => none

/-- Modifier field: r : Rm. -/
def cvtMod (r : Rm) : BitVec 5 := (0 : BitVec 1) ++ r.code ++ (0 : BitVec 1)
/-- The modifier read back. -/
def cvtMod? (m : BitVec 5) : Option (Rm) :=
  if m.getLsbD 4 || m.getLsbD 0 then none else Rm.ofCode (m.extractLsb' 1 3)

/-- Modifier field: x : Bool, w : BitVec 3. -/
def lbitMod (x : Bool) (w : BitVec 3) : BitVec 5 := (0 : BitVec 1) ++ BitVec.ofBool x ++ w
/-- The modifier read back. -/
def lbitMod? (m : BitVec 5) : Option (Bool × BitVec 3) :=
  if m.getLsbD 4 then none else some (m.getLsbD 3, m.extractLsb' 0 3)

/-- Modifier field: w : BitVec 3. -/
def sbitMod (w : BitVec 3) : BitVec 5 := (0 : BitVec 2) ++ w
/-- The modifier read back. -/
def sbitMod? (m : BitVec 5) : Option (BitVec 3) :=
  if m.extractLsb' 3 2 == 0 then some (m.extractLsb' 0 3) else none

/-- Modifier field: s : Scope, p : Order. -/
def ordMod (s : Scope) (p : Order) : BitVec 5 := s.code ++ p.code
/-- The modifier read back. -/
def ordMod? (m : BitVec 5) : Option (Scope × Order) :=
  match Scope.ofCode (m.extractLsb' 2 3), Order.ofCode (m.extractLsb' 0 2) with
  | some s, some p => some (s, p)
  | _, _ => none

/-- Modifier field: s : Scope. -/
def acqMod (s : Scope) : BitVec 5 := s.code ++ Order.acq.code
/-- The modifier read back. -/
def acqMod? (m : BitVec 5) : Option (Scope) :=
  if m.extractLsb' 0 2 == Order.acq.code then Scope.ofCode (m.extractLsb' 2 3) else none

/-- Modifier field: s : Scope. -/
def relMod (s : Scope) : BitVec 5 := s.code ++ Order.rel.code
/-- The modifier read back. -/
def relMod? (m : BitVec 5) : Option (Scope) :=
  if m.extractLsb' 0 2 == Order.rel.code then Scope.ofCode (m.extractLsb' 2 3) else none

/-- Modifier field: s : Scope. -/
def noOrdMod (s : Scope) : BitVec 5 := s.code ++ Order.none.code
/-- The modifier read back. -/
def noOrdMod? (m : BitVec 5) : Option (Scope) :=
  if m.extractLsb' 0 2 == Order.none.code then Scope.ofCode (m.extractLsb' 2 3) else none

/-- Modifier field: u : Bool, s : Bool, k : LaneKind. -/
def packMod (u : Bool) (s : Bool) (k : LaneKind) : BitVec 5 := BitVec.ofBool u ++ BitVec.ofBool s ++ k.code
/-- The modifier read back. -/
def packMod? (m : BitVec 5) : Option (Bool × Bool × LaneKind) :=
  (LaneKind.ofCode (m.extractLsb' 0 3)).map fun k => (m.getLsbD 4, m.getLsbD 3, k)

/-- Modifier field: u : Bool, k : LaneKind. -/
def packUMod (u : Bool) (k : LaneKind) : BitVec 5 := BitVec.ofBool u ++ (0 : BitVec 1) ++ k.code
/-- The modifier read back. -/
def packUMod? (m : BitVec 5) : Option (Bool × LaneKind) :=
  if m.getLsbD 3 then none else (LaneKind.ofCode (m.extractLsb' 0 3)).map fun k => (m.getLsbD 4, k)

/-- Modifier field: c : PcmpOp, k : LaneKind. -/
def pcmpMod (c : PcmpOp) (k : LaneKind) : BitVec 5 := c.code ++ k.code
/-- The modifier read back. -/
def pcmpMod? (m : BitVec 5) : Option (PcmpOp × LaneKind) :=
  match PcmpOp.ofCode (m.extractLsb' 3 2), LaneKind.ofCode (m.extractLsb' 0 3) with
  | some c, some k => some (c, k)
  | _, _ => none

/-- Modifier field: o : PcvtOp. -/
def pcvtMod (o : PcvtOp) : BitVec 5 := o.code
/-- The modifier read back. -/
def pcvtMod? (m : BitVec 5) : Option (PcvtOp) :=
  PcvtOp.ofCode m

/-- Modifier field: k : LacKind. -/
def lacMod (k : LacKind) : BitVec 5 := k.code
/-- The modifier read back. -/
def lacMod? (m : BitVec 5) : Option (LacKind) :=
  LacKind.ofCode m

/-- Modifier field: o : GleanOp. -/
def gleanMod (o : GleanOp) : BitVec 5 := o.code
/-- The modifier read back. -/
def gleanMod? (m : BitVec 5) : Option (GleanOp) :=
  GleanOp.ofCode m

/-- Modifier field: e : EntrySize. -/
def entryMod (e : EntrySize) : BitVec 5 := (0 : BitVec 3) ++ e.code
/-- The modifier read back. -/
def entryMod? (m : BitVec 5) : Option (EntrySize) :=
  if m.extractLsb' 2 3 == 0 then EntrySize.ofCode (m.extractLsb' 0 2) else none

/-- Modifier field: w : AmoSize. -/
def sizeMod (w : AmoSize) : BitVec 5 := (0 : BitVec 4) ++ w.code
/-- The modifier read back. -/
def sizeMod? (m : BitVec 5) : Option (AmoSize) :=
  if m.extractLsb' 1 4 == 0 then AmoSize.ofCode (m.extractLsb' 0 1) else none

/-- Modifier field: n : BitVec 2. -/
def two (n : BitVec 2) : BitVec 5 := (0 : BitVec 3) ++ n
/-- The modifier read back. -/
def two? (m : BitVec 5) : Option (BitVec 2) :=
  if m.extractLsb' 2 3 == 0 then some (m.extractLsb' 0 2) else none

/-- Modifier field: n : BitVec 3. -/
def three (n : BitVec 3) : BitVec 5 := (0 : BitVec 2) ++ n
/-- The modifier read back. -/
def three? (m : BitVec 5) : Option (BitVec 3) :=
  if m.extractLsb' 3 2 == 0 then some (m.extractLsb' 0 3) else none

/-- Functions of major 0x00 (04 R91, R92). -/
def decodeAlu (x : Fields) : Except Reject Instr :=
  match x.f.toNat with
  | 1 => need (x.m == 0) (.add x.d x.a x.b)
  | 2 => need (x.m == 0) (.sub x.d x.a x.b)
  | 3 => need (x.m == 0) (.mul x.d x.a x.b)
  | 4 => need (x.m == 0) (.mulh x.d x.a x.b)
  | 5 => need (x.m == 0) (.mulhu x.d x.a x.b)
  | 6 => need (x.m == 0) (.div x.d x.a x.b)
  | 7 => need (x.m == 0) (.divu x.d x.a x.b)
  | 8 => need (x.m == 0) (.rem x.d x.a x.b)
  | 9 => need (x.m == 0) (.remu x.d x.a x.b)
  | 10 => need (x.m == 0) (.and x.d x.a x.b)
  | 11 => need (x.m == 0) (.or x.d x.a x.b)
  | 12 => need (x.m == 0) (.xor x.d x.a x.b)
  | 13 => need (x.m == 0) (.shl x.d x.a x.b)
  | 14 => need (x.m == 0) (.shr x.d x.a x.b)
  | 15 => need (x.m == 0) (.sra x.d x.a x.b)
  | 16 => need (x.m == 0) (.rot x.d x.a x.b)
  | 17 => need (x.b == 0 && x.m == 0) (.clz x.d x.a)
  | 18 => need (x.b == 0 && x.m == 0) (.ctz x.d x.a)
  | 19 => need (x.b == 0 && x.m == 0) (.popc x.d x.a)
  | 20 => need (x.m == 0) (.min x.d x.a x.b)
  | 21 => need (x.m == 0) (.max x.d x.a x.b)
  | 22 => need (x.m == 0) (.minu x.d x.a x.b)
  | 23 => need (x.m == 0) (.maxu x.d x.a x.b)
  | 24 => need (x.m == 0) (.slt x.d x.a x.b)
  | 25 => need (x.m == 0) (.sltu x.d x.a x.b)
  | 26 => need (true) (.sel x.d x.a x.b x.m)
  | 27 => need (x.m == 0) (.hash x.d x.a x.b)
  | 28 => need (x.m == 0) (.crng x.d x.a x.b)
  | 29 => need (x.m == 0) (.loc x.d x.a x.b)
  | 30 =>
    match x.m.toNat with
    | 0 => need (x.m == 0) (.peer x.d x.a x.b)
    | 1 => need (true) (.peerWrap x.d x.a x.b)
    | 2 => need (x.b == 0) (.peerLoc x.d x.a)
    | _ => .error .badField
  | 31 => need (x.b == 0 && x.m == 0) (.jr x.d x.a)
  | 32 => need (x.b == 0 && x.m == 0) (.swapws x.d x.a)
  | _ => .error .unassigned

/-- Functions of major 0x26 (04 R91, R92). -/
def decodeBitmem (x : Fields) : Except Reject Instr :=
  match x.f.toNat with
  | 0 => coded (true) ((lbitMod? x.m).map fun q0 => .lbit x.d x.a x.b q0.1 q0.2)
  | 1 => coded (true) ((sbitMod? x.m).map fun q0 => .sbit x.d x.a x.b q0)
  | _ => .error .unassigned

/-- Functions of major 0x27 (04 R91, R92). -/
def decodeMemord (x : Fields) : Except Reject Instr :=
  match x.f.toNat with
  | 0 => coded (x.b == 0) ((acqMod? x.m).map fun q0 => .memordLb x.d x.a q0)
  | 1 => coded (x.b == 0) ((acqMod? x.m).map fun q0 => .memordLbu x.d x.a q0)
  | 2 => coded (x.b == 0) ((acqMod? x.m).map fun q0 => .memordLh x.d x.a q0)
  | 3 => coded (x.b == 0) ((acqMod? x.m).map fun q0 => .memordLhu x.d x.a q0)
  | 4 => coded (x.b == 0) ((acqMod? x.m).map fun q0 => .memordLw x.d x.a q0)
  | 5 => coded (x.b == 0) ((acqMod? x.m).map fun q0 => .memordLwu x.d x.a q0)
  | 6 => coded (x.b == 0) ((acqMod? x.m).map fun q0 => .memordLd x.d x.a q0)
  | 7 => coded (x.b == 0) ((acqMod? x.m).map fun q0 => .memordLq x.d x.a q0)
  | 8 => coded (x.b == 0) ((relMod? x.m).map fun q0 => .memordSb x.d x.a q0)
  | 9 => coded (x.b == 0) ((relMod? x.m).map fun q0 => .memordSh x.d x.a q0)
  | 10 => coded (x.b == 0) ((relMod? x.m).map fun q0 => .memordSw x.d x.a q0)
  | 11 => coded (x.b == 0) ((relMod? x.m).map fun q0 => .memordSd x.d x.a q0)
  | 12 => coded (x.b == 0) ((relMod? x.m).map fun q0 => .memordSq x.d x.a q0)
  | _ => .error .unassigned

/-- Functions of major 0x28 (04 R91, R92). -/
def decodeAmo (x : Fields) : Except Reject Instr :=
  if x.f.getLsbD 4 then .error .badField else
  match AmoSize.ofCode (x.f.extractLsb' 5 1), ordMod? x.m with
  | some z, some q =>
    match (x.f.extractLsb' 0 4).toNat with
    | 0 => .ok (.amoAdd x.d x.a x.b z q.1 q.2)
    | 1 => .ok (.amoAnd x.d x.a x.b z q.1 q.2)
    | 2 => .ok (.amoOr x.d x.a x.b z q.1 q.2)
    | 3 => .ok (.amoXor x.d x.a x.b z q.1 q.2)
    | 4 => .ok (.amoMin x.d x.a x.b z q.1 q.2)
    | 5 => .ok (.amoMax x.d x.a x.b z q.1 q.2)
    | 6 => .ok (.amoMinu x.d x.a x.b z q.1 q.2)
    | 7 => .ok (.amoMaxu x.d x.a x.b z q.1 q.2)
    | 8 => .ok (.amoSwp x.d x.a x.b z q.1 q.2)
    | 9 => .ok (.amoFadd x.d x.a x.b z q.1 q.2)
    | 10 => .ok (.amocas x.d x.a x.b z q.1 q.2)
    | _ => .error .unassigned
  | _, _ => .error .badField

/-- Functions of major 0x29 (04 R91, R92). -/
def decodeFence (x : Fields) : Except Reject Instr :=
  match x.f.toNat with
  | 0 => coded (x.d == 0 && x.a == 0 && x.b == 0) ((ordMod? x.m).map fun q0 => .fence q0.1 q0.2)
  | 1 => coded (x.d == 0 && x.a == 0 && x.b == 0) ((noOrdMod? x.m).map fun q0 => .icsync q0)
  | _ => .error .unassigned

/-- Functions of major 0x2A (04 R91, R92). -/
def decodeFpu (x : Fields) : Except Reject Instr :=
  match x.f.toNat with
  | 0 => coded (true) ((fpMod? x.m).map fun q0 => .fadd x.d x.a x.b q0.1 q0.2)
  | 1 => coded (true) ((fpMod? x.m).map fun q0 => .fsub x.d x.a x.b q0.1 q0.2)
  | 2 => coded (true) ((fpMod? x.m).map fun q0 => .fmul x.d x.a x.b q0.1 q0.2)
  | 3 => coded (true) ((fpMod? x.m).map fun q0 => .fma x.d x.a x.b q0.1 q0.2)
  | 4 => coded (true) ((precMod? x.m).map fun q0 => .fmin x.d x.a x.b q0)
  | 5 => coded (true) ((precMod? x.m).map fun q0 => .fmax x.d x.a x.b q0)
  | 6 => coded (true) ((cmpMod? x.m).map fun q0 => .fcmp x.d x.a x.b q0.1 q0.2)
  | 7 => coded (true) ((cvtMod? x.m).bind fun q0 => (CvtOp.ofCode x.b).map fun q1 => .fcvt x.d x.a q1 q0)
  | 8 => coded (true) ((sgnMod? x.m).map fun q0 => .fsgn x.d x.a x.b q0.1 q0.2)
  | _ => .error .unassigned

/-- Functions of major 0x2B (04 R91, R92). -/
def decodeSfu (x : Fields) : Except Reject Instr :=
  match x.f.toNat with
  | 0 => coded (true) ((fpMod? x.m).map fun q0 => .fdiv x.d x.a x.b q0.1 q0.2)
  | 1 => coded (x.b == 0) ((fpMod? x.m).map fun q0 => .fsqrt x.d x.a q0.1 q0.2)
  | 2 => coded (x.b == 0) ((fpMod? x.m).map fun q0 => .frcp x.d x.a q0.1 q0.2)
  | 3 => coded (x.b == 0) ((fpMod? x.m).map fun q0 => .frsq x.d x.a q0.1 q0.2)
  | 4 => coded (x.b == 0) ((fpMod? x.m).map fun q0 => .fexp2 x.d x.a q0.1 q0.2)
  | 5 => coded (x.b == 0) ((fpMod? x.m).map fun q0 => .flog2 x.d x.a q0.1 q0.2)
  | _ => .error .unassigned

/-- Functions of major 0x2C (04 R91, R92). -/
def decodePack (x : Fields) : Except Reject Instr :=
  match x.f.toNat with
  | 0 => coded (true) ((packMod? x.m).map fun q0 => .padd x.d x.a x.b q0.1 q0.2.1 q0.2.2)
  | 1 => coded (true) ((packMod? x.m).map fun q0 => .psub x.d x.a x.b q0.1 q0.2.1 q0.2.2)
  | 2 => coded (true) ((packMod? x.m).map fun q0 => .pmul x.d x.a x.b q0.1 q0.2.1 q0.2.2)
  | 3 => coded (true) ((packMod? x.m).map fun q0 => .pfma x.d x.a x.b q0.1 q0.2.1 q0.2.2)
  | 4 => coded (true) ((packUMod? x.m).map fun q0 => .pmin x.d x.a x.b q0.1 q0.2)
  | 5 => coded (true) ((packUMod? x.m).map fun q0 => .pmax x.d x.a x.b q0.1 q0.2)
  | 6 => coded (true) ((packUMod? x.m).map fun q0 => .pdot x.d x.a x.b q0.1 q0.2)
  | 7 => coded (true) ((pcvtMod? x.m).map fun q0 => .pcvt x.d x.a x.b q0)
  | 8 => need (x.m == 0) (.pshuf x.d x.a x.b)
  | 9 => coded (true) ((pcmpMod? x.m).map fun q0 => .pcmp x.d x.a x.b q0.1 q0.2)
  | _ => .error .unassigned

/-- Functions of major 0x2D (04 R91, R92). -/
def decodeLac (x : Fields) : Except Reject Instr :=
  match x.f.toNat with
  | 0 => need (x.d == 0 && x.b == 0 && x.m == 0) (.lacz x.a)
  | 1 => coded (x.d == 0) ((lacMod? x.m).map fun q0 => .laca x.a x.b q0)
  | 2 => need (x.b == 0 && x.m == 0) (.lacr x.d x.a)
  | _ => .error .unassigned

/-- Functions of major 0x30 (04 R91, R92). -/
def decodeTile (x : Fields) : Except Reject Instr :=
  match x.f.toNat with
  | 0 => need (x.m == 0) (.topen x.d x.a x.b)
  | 1 => need (true) (.trow x.d x.a x.b x.m)
  | 2 => need (true) (.telm x.d x.a x.b x.m)
  | 3 => need (x.m == 0) (.tfill x.d x.a x.b)
  | 4 => need (x.m == 0) (.seal x.d x.a x.b)
  | 5 => need (x.d == 0 && x.b == 0 && x.m == 0) (.tfree x.a)
  | 6 => coded (x.b == 0) ((two? x.m).map fun q0 => .thdr x.d x.a q0)
  | _ => .error .unassigned

/-- Functions of major 0x31 (04 R91, R92). -/
def decodeEngine (x : Fields) : Except Reject Instr :=
  match x.f.toNat with
  | 0 => need (x.m == 0) (.xcp x.d x.a x.b)
  | 1 => need (x.m == 0) (.wdq x.d x.a x.b)
  | _ => .error .unassigned

/-- Functions of major 0x32 (04 R91, R92). -/
def decodeCt (x : Fields) : Except Reject Instr :=
  match x.f.toNat with
  | 0 => need (x.b == 0 && x.m == 0) (.ctwait x.d x.a)
  | 1 => need (x.b == 0 && x.m == 0) (.ctany x.d x.a)
  | 2 => need (x.b == 0 && x.m == 0) (.ctff x.d x.a)
  | 3 => coded (x.b == 0) ((three? x.m).map fun q0 => .ctrd x.d x.a q0)
  | _ => .error .unassigned

/-- Functions of major 0x33 (04 R91, R92). -/
def decodeQueue (x : Fields) : Except Reject Instr :=
  match x.f.toNat with
  | 0 => coded (true) ((entryMod? x.m).map fun q0 => .enq x.d x.a x.b q0)
  | 1 => coded (true) ((entryMod? x.m).map fun q0 => .deq x.d x.a x.b q0)
  | 2 => need (x.b == 0 && x.m == 0) (.qinfo x.d x.a)
  | _ => .error .unassigned

/-- Functions of major 0x34 (04 R91, R92). -/
def decodeFuture (x : Fields) : Except Reject Instr :=
  match x.f.toNat with
  | 0 =>
    match x.m.toNat with
    | 0 => need (x.b == 0 && x.m == 0) (.ldf x.d x.a)
    | 1 => need (x.b == 0) (.ldfNw x.d x.a)
    | _ => .error .badField
  | 1 => need (x.m == 0) (.stf x.d x.a x.b)
  | 2 => need (x.b == 0 && x.m == 0) (.fclr x.d x.a)
  | _ => .error .unassigned

/-- Functions of major 0x35 (04 R91, R92). -/
def decodeTask (x : Fields) : Except Reject Instr :=
  match x.f.toNat with
  | 0 =>
    match x.m.toNat with
    | 0 => need (x.b == 0 && x.m == 0) (.spawn x.d x.a)
    | 1 => need (true) (.spawnPeer x.d x.a x.b)
    | _ => .error .badField
  | 1 =>
    match x.m.toNat with
    | 0 => need (x.b == 0 && x.m == 0) (.susp x.d x.a)
    | 1 => need (x.a == 0 && x.b == 0) (.suspRequeue x.d)
    | _ => .error .badField
  | 2 => need (x.d == 0 && x.a == 0 && x.b == 0 && x.m == 0) .endTask
  | _ => .error .unassigned

/-- Functions of major 0x38 (04 R91, R92). -/
def decodeGlean (x : Fields) : Except Reject Instr :=
  match x.f.toNat with
  | 0 => coded (x.b == 0) ((gleanMod? x.m).map fun q0 => .gld x.d x.a q0)
  | 1 => coded (true) ((gleanMod? x.m).map fun q0 => .gldm x.d x.a x.b q0)
  | 2 => coded (true) ((sizeMod? x.m).map fun q0 => .gst x.d x.a x.b q0)
  | 3 => need (x.b == 0 && x.m == 0) (.garr x.d x.a)
  | 4 => need (x.m == 0) (.gwait x.d x.a x.b)
  | _ => .error .unassigned

/-- Functions of major 0x39 (04 R91, R92). -/
def decodeEvent (x : Fields) : Except Reject Instr :=
  match x.f.toNat with
  | 0 => need (x.d == 0 && x.m == 0) (.evsend x.a x.b)
  | 1 => need (x.b == 0 && x.m == 0) (.wait x.d x.a)
  | 2 => need (x.d == 0 && x.b == 0 && x.m == 0) (.yield x.a)
  | _ => .error .unassigned

/-- Functions of major 0x3C (04 R91, R92). -/
def decodeSys (x : Fields) : Except Reject Instr :=
  match x.f.toNat with
  | 0 => need (x.d == 0 && x.a == 0 && x.b == 0) (.trap x.m)
  | 1 => need (x.d == 0 && x.a == 0 && x.b == 0 && x.m == 0) .eret
  | 2 => need (x.d == 0 && x.a == 0 && x.b == 0 && x.m == 0) .nop
  | _ => .error .unassigned

/-- The instruction of the fields, before the operand checks (04 R90). DEDUCED (entry 20); safe. -/
def decodeFields (x : Fields) : Except Reject Instr :=
  match x.maj.toNat with
  | 0x00 => decodeAlu x
  | 0x01 => .ok (.addi x.d x.a (immOf x))
  | 0x02 => .ok (.andi x.d x.a (immOf x))
  | 0x03 => .ok (.ori x.d x.a (immOf x))
  | 0x04 => .ok (.xori x.d x.a (immOf x))
  | 0x05 => .ok (.slti x.d x.a (immOf x))
  | 0x06 => need (x.a == 0) (.ldhi x.d (immOf x))
  | 0x07 => need (x.a == 0) (.addpc x.d (immOf x))
  | 0x08 =>
    if (immOf x).extractLsb' 6 8 == 0 then
      match ((immOf x).extractLsb' 14 2).toNat with
      | 0 => .ok (.shli x.d x.a x.f)
      | 1 => .ok (.shri x.d x.a x.f)
      | 2 => .ok (.srai x.d x.a x.f)
      | _ => .ok (.roti x.d x.a x.f)
    else .error .badField
  | 0x09 =>
    if (immOf x).extractLsb' 12 3 == 0 then
      match (immOf x).getLsbD 15 with
      | false => .ok (.bfx x.d x.a ((immOf x).extractLsb' 6 6) x.f)
      | true => .ok (.bfi x.d x.a ((immOf x).extractLsb' 6 6) x.f)
    else .error .badField
  | 0x10 => .ok (.beq x.d x.a (immOf x))
  | 0x11 => .ok (.bne x.d x.a (immOf x))
  | 0x12 => .ok (.blt x.d x.a (immOf x))
  | 0x13 => .ok (.bge x.d x.a (immOf x))
  | 0x14 => .ok (.bltu x.d x.a (immOf x))
  | 0x15 => .ok (.bgeu x.d x.a (immOf x))
  | 0x16 => .ok (.jmp (offOf x))
  | 0x17 => .ok (.call (offOf x))
  | 0x18 => .ok (.lb x.d x.a (immOf x))
  | 0x19 => .ok (.lbu x.d x.a (immOf x))
  | 0x1A => .ok (.lh x.d x.a (immOf x))
  | 0x1B => .ok (.lhu x.d x.a (immOf x))
  | 0x1C => .ok (.lw x.d x.a (immOf x))
  | 0x1D => .ok (.lwu x.d x.a (immOf x))
  | 0x1E => .ok (.ld x.d x.a (immOf x))
  | 0x1F => .ok (.lq x.d x.a (immOf x))
  | 0x20 => .ok (.sb x.d x.a (immOf x))
  | 0x21 => .ok (.sh x.d x.a (immOf x))
  | 0x22 => .ok (.sw x.d x.a (immOf x))
  | 0x23 => .ok (.sd x.d x.a (immOf x))
  | 0x24 => .ok (.sq x.d x.a (immOf x))
  | 0x25 => coded true ((PflHint.ofCode x.d).map fun q => .pfl q x.a (immOf x))
  | 0x26 => decodeBitmem x
  | 0x27 => decodeMemord x
  | 0x28 => decodeAmo x
  | 0x29 => decodeFence x
  | 0x2A => decodeFpu x
  | 0x2B => decodeSfu x
  | 0x2C => decodePack x
  | 0x2D => decodeLac x
  | 0x30 => decodeTile x
  | 0x31 => decodeEngine x
  | 0x32 => decodeCt x
  | 0x33 => decodeQueue x
  | 0x34 => decodeFuture x
  | 0x35 => decodeTask x
  | 0x38 => decodeGlean x
  | 0x39 => decodeEvent x
  | 0x3A => coded (x.a == 0) ((SysReg.ofCode (immOf x)).map fun q => .rdsr x.d q)
  | 0x3B => coded (x.d == 0) ((SysReg.ofCode (immOf x)).map fun q => .wrsr x.a q)
  | 0x3C => decodeSys x
  | _ => .error .unassigned

/-- The swarm instruction of a word, or why there is none (04 R93 step 2). -/
def decodeSwarm (w : Word32) : Except Reject Instr :=
  match decodeFields (fieldsOf w) with
  | .ok i => if i.wf then .ok i else .error .illFormed
  | .error r => .error r

/-- The fields of a swarm instruction; other constructors have none. -/
def encodeFields (i : Instr) : Option Fields :=
  match i with
  | .add d a b => some ⟨0x00, d, a, b, 0, 1⟩
  | .sub d a b => some ⟨0x00, d, a, b, 0, 2⟩
  | .mul d a b => some ⟨0x00, d, a, b, 0, 3⟩
  | .mulh d a b => some ⟨0x00, d, a, b, 0, 4⟩
  | .mulhu d a b => some ⟨0x00, d, a, b, 0, 5⟩
  | .div d a b => some ⟨0x00, d, a, b, 0, 6⟩
  | .divu d a b => some ⟨0x00, d, a, b, 0, 7⟩
  | .rem d a b => some ⟨0x00, d, a, b, 0, 8⟩
  | .remu d a b => some ⟨0x00, d, a, b, 0, 9⟩
  | .and d a b => some ⟨0x00, d, a, b, 0, 10⟩
  | .or d a b => some ⟨0x00, d, a, b, 0, 11⟩
  | .xor d a b => some ⟨0x00, d, a, b, 0, 12⟩
  | .shl d a b => some ⟨0x00, d, a, b, 0, 13⟩
  | .shr d a b => some ⟨0x00, d, a, b, 0, 14⟩
  | .sra d a b => some ⟨0x00, d, a, b, 0, 15⟩
  | .rot d a b => some ⟨0x00, d, a, b, 0, 16⟩
  | .clz d a => some ⟨0x00, d, a, 0, 0, 17⟩
  | .ctz d a => some ⟨0x00, d, a, 0, 0, 18⟩
  | .popc d a => some ⟨0x00, d, a, 0, 0, 19⟩
  | .min d a b => some ⟨0x00, d, a, b, 0, 20⟩
  | .max d a b => some ⟨0x00, d, a, b, 0, 21⟩
  | .minu d a b => some ⟨0x00, d, a, b, 0, 22⟩
  | .maxu d a b => some ⟨0x00, d, a, b, 0, 23⟩
  | .slt d a b => some ⟨0x00, d, a, b, 0, 24⟩
  | .sltu d a b => some ⟨0x00, d, a, b, 0, 25⟩
  | .sel d a b c => some ⟨0x00, d, a, b, c, 26⟩
  | .hash d a b => some ⟨0x00, d, a, b, 0, 27⟩
  | .crng d a b => some ⟨0x00, d, a, b, 0, 28⟩
  | .loc d a b => some ⟨0x00, d, a, b, 0, 29⟩
  | .peer d a b => some ⟨0x00, d, a, b, 0, 30⟩
  | .peerWrap d a b => some ⟨0x00, d, a, b, 1, 30⟩
  | .peerLoc d a => some ⟨0x00, d, a, 0, 2, 30⟩
  | .jr d a => some ⟨0x00, d, a, 0, 0, 31⟩
  | .swapws d a => some ⟨0x00, d, a, 0, 0, 32⟩
  | .addi d a i => some (immFields 0x01 d a i)
  | .andi d a i => some (immFields 0x02 d a i)
  | .ori d a i => some (immFields 0x03 d a i)
  | .xori d a i => some (immFields 0x04 d a i)
  | .slti d a i => some (immFields 0x05 d a i)
  | .ldhi d i => some (immFields 0x06 d 0 i)
  | .addpc d i => some (immFields 0x07 d 0 i)
  | .shli d a n => some (immFields 0x08 d a (shiftImm 0 n))
  | .shri d a n => some (immFields 0x08 d a (shiftImm 1 n))
  | .srai d a n => some (immFields 0x08 d a (shiftImm 2 n))
  | .roti d a n => some (immFields 0x08 d a (shiftImm 3 n))
  | .bfx d a w l => some (immFields 0x09 d a (bitfImm 0 w l))
  | .bfi d a w l => some (immFields 0x09 d a (bitfImm 1 w l))
  | .beq a b o => some (immFields 0x10 a b o)
  | .bne a b o => some (immFields 0x11 a b o)
  | .blt a b o => some (immFields 0x12 a b o)
  | .bge a b o => some (immFields 0x13 a b o)
  | .bltu a b o => some (immFields 0x14 a b o)
  | .bgeu a b o => some (immFields 0x15 a b o)
  | .jmp o => some (offFields 0x16 o)
  | .call o => some (offFields 0x17 o)
  | .lb d a i => some (immFields 0x18 d a i)
  | .lbu d a i => some (immFields 0x19 d a i)
  | .lh d a i => some (immFields 0x1A d a i)
  | .lhu d a i => some (immFields 0x1B d a i)
  | .lw d a i => some (immFields 0x1C d a i)
  | .lwu d a i => some (immFields 0x1D d a i)
  | .ld d a i => some (immFields 0x1E d a i)
  | .lq d a i => some (immFields 0x1F d a i)
  | .sb d a i => some (immFields 0x20 d a i)
  | .sh d a i => some (immFields 0x21 d a i)
  | .sw d a i => some (immFields 0x22 d a i)
  | .sd d a i => some (immFields 0x23 d a i)
  | .sq d a i => some (immFields 0x24 d a i)
  | .pfl h a i => some (immFields 0x25 h.code a i)
  | .lbit d a b x w => some ⟨0x26, d, a, b, (lbitMod x w), 0⟩
  | .sbit d a b w => some ⟨0x26, d, a, b, (sbitMod w), 1⟩
  | .memordLb d a s => some ⟨0x27, d, a, 0, (acqMod s), 0⟩
  | .memordLbu d a s => some ⟨0x27, d, a, 0, (acqMod s), 1⟩
  | .memordLh d a s => some ⟨0x27, d, a, 0, (acqMod s), 2⟩
  | .memordLhu d a s => some ⟨0x27, d, a, 0, (acqMod s), 3⟩
  | .memordLw d a s => some ⟨0x27, d, a, 0, (acqMod s), 4⟩
  | .memordLwu d a s => some ⟨0x27, d, a, 0, (acqMod s), 5⟩
  | .memordLd d a s => some ⟨0x27, d, a, 0, (acqMod s), 6⟩
  | .memordLq d a s => some ⟨0x27, d, a, 0, (acqMod s), 7⟩
  | .memordSb d a s => some ⟨0x27, d, a, 0, (relMod s), 8⟩
  | .memordSh d a s => some ⟨0x27, d, a, 0, (relMod s), 9⟩
  | .memordSw d a s => some ⟨0x27, d, a, 0, (relMod s), 10⟩
  | .memordSd d a s => some ⟨0x27, d, a, 0, (relMod s), 11⟩
  | .memordSq d a s => some ⟨0x27, d, a, 0, (relMod s), 12⟩
  | .amoAdd d a b z s p => some ⟨0x28, d, a, b, (ordMod s p), z.code ++ (0 : BitVec 5)⟩
  | .amoAnd d a b z s p => some ⟨0x28, d, a, b, (ordMod s p), z.code ++ (1 : BitVec 5)⟩
  | .amoOr d a b z s p => some ⟨0x28, d, a, b, (ordMod s p), z.code ++ (2 : BitVec 5)⟩
  | .amoXor d a b z s p => some ⟨0x28, d, a, b, (ordMod s p), z.code ++ (3 : BitVec 5)⟩
  | .amoMin d a b z s p => some ⟨0x28, d, a, b, (ordMod s p), z.code ++ (4 : BitVec 5)⟩
  | .amoMax d a b z s p => some ⟨0x28, d, a, b, (ordMod s p), z.code ++ (5 : BitVec 5)⟩
  | .amoMinu d a b z s p => some ⟨0x28, d, a, b, (ordMod s p), z.code ++ (6 : BitVec 5)⟩
  | .amoMaxu d a b z s p => some ⟨0x28, d, a, b, (ordMod s p), z.code ++ (7 : BitVec 5)⟩
  | .amoSwp d a b z s p => some ⟨0x28, d, a, b, (ordMod s p), z.code ++ (8 : BitVec 5)⟩
  | .amoFadd d a b z s p => some ⟨0x28, d, a, b, (ordMod s p), z.code ++ (9 : BitVec 5)⟩
  | .amocas d a b z s p => some ⟨0x28, d, a, b, (ordMod s p), z.code ++ (10 : BitVec 5)⟩
  | .fence s p => some ⟨0x29, 0, 0, 0, (ordMod s p), 0⟩
  | .icsync s => some ⟨0x29, 0, 0, 0, (noOrdMod s), 1⟩
  | .fadd d a b r p => some ⟨0x2A, d, a, b, (fpMod r p), 0⟩
  | .fsub d a b r p => some ⟨0x2A, d, a, b, (fpMod r p), 1⟩
  | .fmul d a b r p => some ⟨0x2A, d, a, b, (fpMod r p), 2⟩
  | .fma d a b r p => some ⟨0x2A, d, a, b, (fpMod r p), 3⟩
  | .fmin d a b p => some ⟨0x2A, d, a, b, (precMod p), 4⟩
  | .fmax d a b p => some ⟨0x2A, d, a, b, (precMod p), 5⟩
  | .fcmp d a b c p => some ⟨0x2A, d, a, b, (cmpMod c p), 6⟩
  | .fcvt d a c r => some ⟨0x2A, d, a, c.code, (cvtMod r), 7⟩
  | .fsgn d a b o p => some ⟨0x2A, d, a, b, (sgnMod o p), 8⟩
  | .fdiv d a b r p => some ⟨0x2B, d, a, b, (fpMod r p), 0⟩
  | .fsqrt d a r p => some ⟨0x2B, d, a, 0, (fpMod r p), 1⟩
  | .frcp d a r p => some ⟨0x2B, d, a, 0, (fpMod r p), 2⟩
  | .frsq d a r p => some ⟨0x2B, d, a, 0, (fpMod r p), 3⟩
  | .fexp2 d a r p => some ⟨0x2B, d, a, 0, (fpMod r p), 4⟩
  | .flog2 d a r p => some ⟨0x2B, d, a, 0, (fpMod r p), 5⟩
  | .padd d a b u s k => some ⟨0x2C, d, a, b, (packMod u s k), 0⟩
  | .psub d a b u s k => some ⟨0x2C, d, a, b, (packMod u s k), 1⟩
  | .pmul d a b u s k => some ⟨0x2C, d, a, b, (packMod u s k), 2⟩
  | .pfma d a b u s k => some ⟨0x2C, d, a, b, (packMod u s k), 3⟩
  | .pmin d a b u k => some ⟨0x2C, d, a, b, (packUMod u k), 4⟩
  | .pmax d a b u k => some ⟨0x2C, d, a, b, (packUMod u k), 5⟩
  | .pdot d a b u k => some ⟨0x2C, d, a, b, (packUMod u k), 6⟩
  | .pcvt d a b m => some ⟨0x2C, d, a, b, (pcvtMod m), 7⟩
  | .pshuf d a b => some ⟨0x2C, d, a, b, 0, 8⟩
  | .pcmp d a b c k => some ⟨0x2C, d, a, b, (pcmpMod c k), 9⟩
  | .lacz a => some ⟨0x2D, 0, a, 0, 0, 0⟩
  | .laca a b k => some ⟨0x2D, 0, a, b, (lacMod k), 1⟩
  | .lacr d a => some ⟨0x2D, d, a, 0, 0, 2⟩
  | .topen d a b => some ⟨0x30, d, a, b, 0, 0⟩
  | .trow d a b c => some ⟨0x30, d, a, b, c, 1⟩
  | .telm d a b c => some ⟨0x30, d, a, b, c, 2⟩
  | .tfill d a b => some ⟨0x30, d, a, b, 0, 3⟩
  | .seal d a b => some ⟨0x30, d, a, b, 0, 4⟩
  | .tfree a => some ⟨0x30, 0, a, 0, 0, 5⟩
  | .thdr d a n => some ⟨0x30, d, a, 0, (two n), 6⟩
  | .xcp d a b => some ⟨0x31, d, a, b, 0, 0⟩
  | .wdq d a b => some ⟨0x31, d, a, b, 0, 1⟩
  | .ctwait d a => some ⟨0x32, d, a, 0, 0, 0⟩
  | .ctany d a => some ⟨0x32, d, a, 0, 0, 1⟩
  | .ctff d a => some ⟨0x32, d, a, 0, 0, 2⟩
  | .ctrd d a n => some ⟨0x32, d, a, 0, (three n), 3⟩
  | .enq d a b e => some ⟨0x33, d, a, b, (entryMod e), 0⟩
  | .deq d a b e => some ⟨0x33, d, a, b, (entryMod e), 1⟩
  | .qinfo d a => some ⟨0x33, d, a, 0, 0, 2⟩
  | .ldf d a => some ⟨0x34, d, a, 0, 0, 0⟩
  | .ldfNw d a => some ⟨0x34, d, a, 0, 1, 0⟩
  | .stf d a b => some ⟨0x34, d, a, b, 0, 1⟩
  | .fclr d a => some ⟨0x34, d, a, 0, 0, 2⟩
  | .spawn d a => some ⟨0x35, d, a, 0, 0, 0⟩
  | .spawnPeer d a b => some ⟨0x35, d, a, b, 1, 0⟩
  | .susp d a => some ⟨0x35, d, a, 0, 0, 1⟩
  | .suspRequeue d => some ⟨0x35, d, 0, 0, 1, 1⟩
  | .endTask => some ⟨0x35, 0, 0, 0, 0, 2⟩
  | .gld d a m => some ⟨0x38, d, a, 0, (gleanMod m), 0⟩
  | .gldm d a b m => some ⟨0x38, d, a, b, (gleanMod m), 1⟩
  | .gst d a b w => some ⟨0x38, d, a, b, (sizeMod w), 2⟩
  | .garr d a => some ⟨0x38, d, a, 0, 0, 3⟩
  | .gwait d a b => some ⟨0x38, d, a, b, 0, 4⟩
  | .evsend a b => some ⟨0x39, 0, a, b, 0, 0⟩
  | .wait d a => some ⟨0x39, d, a, 0, 0, 1⟩
  | .yield a => some ⟨0x39, 0, a, 0, 0, 2⟩
  | .rdsr d i => some (immFields 0x3A d 0 i.code)
  | .wrsr a i => some (immFields 0x3B 0 a i.code)
  | .trap n => some ⟨0x3C, 0, 0, 0, n, 0⟩
  | .eret => some ⟨0x3C, 0, 0, 0, 0, 1⟩
  | .nop => some ⟨0x3C, 0, 0, 0, 0, 2⟩
  | .mma _ _ _ => none
  | .mmaz _ _ _ => none
  | .wload _ _ => none
  | .wdrop _ => none
  | .czero _ _ _ _ => none
  | .cload _ _ => none
  | .cstore _ _ _ _ _ _ _ => none
  | .crow _ _ _ => none
  | .cput _ _ _ => none
  | .vadd _ _ _ _ _ => none
  | .vsub _ _ _ _ _ => none
  | .vmul _ _ _ _ _ => none
  | .vfma _ _ _ _ _ => none
  | .vmax _ _ _ _ _ => none
  | .vmin _ _ _ _ _ => none
  | .vabs _ _ _ _ => none
  | .vcmp _ _ _ _ _ _ => none
  | .vsel _ _ _ _ _ => none
  | .vcvt _ _ _ _ => none
  | .vreds _ _ _ _ => none
  | .vredm _ _ _ _ => none
  | .vbcast _ _ _ => none
  | .vld _ _ _ _ _ => none
  | .vst _ _ _ _ _ => none
  | .btopk _ _ _ _ => none
  | .xexp2 _ _ _ => none
  | .xlog2 _ _ _ => none
  | .xrcp _ _ _ => none
  | .xrsq _ _ _ => none
  | .xtanh _ _ _ => none
  | .xsig _ _ _ => none
  | .take _ => none
  | .give _ => none
  | .hrel _ => none
  | .sadd _ _ _ => none
  | .ssub _ _ _ => none
  | .sand _ _ _ => none
  | .sshl _ _ _ => none
  | .saddi _ _ _ => none
  | .sldi _ _ => none
  | .sld _ _ _ => none
  | .sst _ _ _ => none
  | .br _ _ => none
  | .brc _ _ _ _ => none
  | .loop _ _ _ => none
  | .drain => none
  | .signal _ _ => none
  | .halt => none
  | .snop => none
  | .hdrf _ _ _ => none
  | .pendingWriteLand _ _ => none
  | .mOpCompletion _ _ => none
  | .memoryReply _ _ => none
  | .storePathPerform _ _ => none
  | .sfuResult _ => none
  | .yieldEnd _ => none
  | .timerExpiry _ _ => none
  | .servePendingRequest _ _ => none
  | .bind _ => none
  | .handlerBind _ _ => none
  | .faultQueueRetry _ => none
  | .crewRetirement _ => none
  | .clusterDrainEnd _ => none
  | .launchSelection _ => none
  | .wdqGrant => none
  | .copyQuantum _ _ => none
  | .gldmResult _ _ => none
  | .preemptionEvent => none
  | .copyOut => none
  | .resumeCopyBack => none
  | .activate => none
  | .preempt => none
  | .resume => none
  | .haltCommand => none
  | .deactivate => none
  | .mxresume _ _ _ => none
  | .mxhalt _ _ _ => none
  | .freeze _ _ => none
  | .thaw _ _ => none
  | .release _ _ => none
  | .tlbinvPage _ _ _ => none
  | .tlbinvAsid _ _ => none
  | .tlbinvAll _ => none
  | .doorbell _ _ _ => none
  | .acq _ => none
  | .rel _ => none
  | .stage _ _ => none
  | .fabricLogClr _ _ => none
  | .identity _ _ => none
  | .certs _ _ => none
  | .attest _ _ => none
  | .fwstage _ _ => none
  | .fwcommit _ _ _ => none
  | .registerWrite _ _ _ => none
  | .powerGood => none
  | .cxlHotReset => none
  | .romCheckEnd _ => none
  | .bringUpEnd _ => none
  | .linkDown _ => none
  | .telemetryRefresh _ => none
  | .criticalTrip => none
  | .controlStateEcc _ => none
  | .fetchFill _ _ => none
  | .dxlFlitReceive _ => none
  | .remoteAccess => none
  | .postedWriteAck _ _ _ => none
  | .deviceLost _ => none
  | .workRequestPost _ _ _ => none
  | .rdmaWrite _ _ _ _ => none
  | .rdmaWriteWithImmediate _ _ _ _ _ => none
  | .rdmaRead _ _ _ _ => none
  | .send _ _ _ _ => none
  | .completionEntry _ _ _ _ => none
  | .cxlMemRead _ _ => none
  | .cxlMemWrite _ _ _ _ => none
  | .bar2Read _ _ _ => none
  | .bar2Write _ _ _ => none
  | .cxlCacheSnoop _ => none
  | .illegalWord _ => none
  | .fetchFault => none
  | .illegalBundle => none
  | .backInvalidateAnswer _ => none
  | .descriptorRefetch _ => none

/-- The word of a swarm instruction (04 R85). -/
def encodeSwarm (i : Instr) : Option Word32 := (encodeFields i).map wordOf

/-- The head of an MX op without its STOP bit, and its tail (09 R213, R216). -/
structure OpBits where
  cls : BitVec 2
  opc : BitVec 6
  tlen : BitVec 2
  pri : Reg
  tail : BitVec 64
  deriving DecidableEq, Repr

/-- Tail forms (09 R216). -/
inductive Form where
  | e
  | h
  | w
  | l
  | t
  deriving DecidableEq, Repr

/-- The TLEN of a form. -/
def Form.tlen : Form → BitVec 2
  | .e => 0
  | .h => 1
  | .w => 2
  | .l => 3
  | .t => 2

/-- The fields of a tail: immediate, variant code, PE and P, and the three registers. -/
structure Tail where
  imm : BitVec 32
  f : BitVec 18
  pr : BitVec 4
  c : Reg
  b : Reg
  a : Reg
  deriving DecidableEq, Repr

/-- The fields of a tail of a form (09 R216). Form T is read by `branchTail?`. -/
def tailOf (fm : Form) (t : BitVec 64) : Tail :=
  match fm with
  | .e => ⟨0, 0, 0, 0, 0, 0⟩
  | .h => ⟨0, (t.extractLsb' 14 2).setWidth 18, t.extractLsb' 10 4, 0, t.extractLsb' 5 5, t.extractLsb' 0 5⟩
  | .w => ⟨(t.extractLsb' 24 8).setWidth 32, (t.extractLsb' 19 5).setWidth 18, t.extractLsb' 15 4, t.extractLsb' 10 5, t.extractLsb' 5 5, t.extractLsb' 0 5⟩
  | .l => ⟨t.extractLsb' 32 32, t.extractLsb' 14 18, t.extractLsb' 10 4, 0, t.extractLsb' 5 5, t.extractLsb' 0 5⟩
  | .t => ⟨0, 0, 0, 0, 0, 0⟩

/-- The tail of the fields. -/
def tailBits (fm : Form) (x : Tail) : BitVec 64 :=
  match fm with
  | .e => 0
  | .h => (0 : BitVec 48) ++ x.f.extractLsb' 0 2 ++ x.pr ++ x.b ++ x.a
  | .w => (0 : BitVec 32) ++ x.imm.extractLsb' 0 8 ++ x.f.extractLsb' 0 5 ++ x.pr ++ x.c ++ x.b ++ x.a
  | .l => x.imm ++ x.f ++ x.pr ++ x.b ++ x.a
  | .t => 0

/-- A tail of form T: SENSE, LINE and BUNDLE (09 R216). -/
def branchTail? (t : BitVec 64) : Option (Bool × BitVec 10 × BitVec 5) :=
  if t.extractLsb' 16 16 == 0 then some (t.getLsbD 15, t.extractLsb' 0 10, t.extractLsb' 10 5) else none

/-- The tail of a branch. -/
def branchTail (z : Bool) (line : BitVec 10) (bun : BitVec 5) : BitVec 64 :=
  (0 : BitVec 48) ++ BitVec.ofBool z ++ bun ++ line

/-- PE and P of a predicate operand (09 R216). -/
def predBits (p : Option (BitVec 3)) : BitVec 4 :=
  match p with
  | none => 0
  | some n => (1 : BitVec 1) ++ n

/-- The predicate operand. P is not looked at when PE is 0: DEDUCED (entry 13). Safe. -/
def predOf (x : BitVec 4) : Option (BitVec 3) := if x.getLsbD 3 then some (x.extractLsb' 0 3) else none

/-- The tile code of a register (09 R217). -/
def TileReg.code : TileReg → Reg
  | .h n => (0 : BitVec 1) ++ n
  | .b n => (4 : BitVec 3) ++ n
  | .c n => (3 : BitVec 2) ++ n

/-- The tile register of a code. -/
def TileReg.ofCode (x : Reg) : Option TileReg :=
  if !x.getLsbD 4 then some (.h (x.extractLsb' 0 4))
  else if x.extractLsb' 2 3 == 4 then some (.b (x.extractLsb' 0 2))
  else if x.getLsbD 3 then some (.c (x.extractLsb' 0 3))
  else none

/-- A c or p register number in a five-bit field. -/
def num3? (x : Reg) : Option (BitVec 3) := if x.extractLsb' 3 2 == 0 then some (x.extractLsb' 0 3) else none
/-- A b register number. -/
def num2? (x : Reg) : Option (BitVec 2) := if x.extractLsb' 2 3 == 0 then some (x.extractLsb' 0 2) else none
/-- An h register number. -/
def num4? (x : Reg) : Option (BitVec 4) := if x.getLsbD 4 then none else some (x.extractLsb' 0 4)

/-- A variant code of five bits in the F field. -/
def fcode? (f : BitVec 18) : Option (BitVec 5) := if f.extractLsb' 5 13 == 0 then some (f.extractLsb' 0 5) else none

/-- The ops of class M (09 R218 to R220). -/
def decodeOpM (x : OpBits) : Except Reject Instr :=
  match x.opc.toNat with
  | 0x01 => if x.tlen == Form.h.tlen then let t := tailOf .h x.tail; coded (t.c == 0 && t.pr == 0 && t.imm == 0 && t.f == 0) ((num3? x.pri).bind fun q0 => (num4? t.a).bind fun q1 => (TileReg.ofCode t.b).map fun q2 => .mma q0 q1 q2) else .error .badField
  | 0x02 => if x.tlen == Form.h.tlen then let t := tailOf .h x.tail; coded (t.c == 0 && t.pr == 0 && t.imm == 0 && t.f == 0) ((num3? x.pri).bind fun q0 => (num4? t.a).bind fun q1 => (TileReg.ofCode t.b).map fun q2 => .mmaz q0 q1 q2) else .error .badField
  | 0x03 => if x.tlen == Form.h.tlen then let t := tailOf .h x.tail; coded (t.b == 0 && t.c == 0 && t.pr == 0 && t.imm == 0 && t.f == 0) ((num2? x.pri).bind fun q0 => (num4? t.a).map fun q1 => .wload q0 q1) else .error .badField
  | 0x04 => if x.tlen == Form.e.tlen then coded (true) ((num2? x.pri).map fun q0 => .wdrop q0) else .error .badField
  | 0x05 => if x.tlen == Form.l.tlen then let t := tailOf .l x.tail; coded (t.a == 0 && t.b == 0 && t.c == 0 && t.pr == 0 && t.imm.extractLsb' 24 8 == 0 && !t.imm.getLsbD 23 && !t.imm.getLsbD 15 && t.f == 0) ((num3? x.pri).map fun q0 => .czero q0 (t.imm.extractLsb' 0 8) (t.imm.extractLsb' 8 7) (t.imm.extractLsb' 16 7)) else .error .badField
  | 0x06 => if x.tlen == Form.h.tlen then let t := tailOf .h x.tail; coded (t.b == 0 && t.c == 0 && t.pr == 0 && t.imm == 0 && t.f == 0) ((num3? x.pri).bind fun q0 => (num4? t.a).map fun q1 => .cload q0 q1) else .error .badField
  | 0x07 => if x.tlen == Form.l.tlen then let t := tailOf .l x.tail; coded (t.b == 0 && t.c == 0 && t.pr == 0 && t.f.extractLsb' 15 3 == 0 && storeCodes (t.f.extractLsb' 0 8) (t.f.extractLsb' 8 2) (t.f.extractLsb' 10 3)) ((num3? x.pri).map fun q0 => .cstore q0 t.a t.imm (t.f.extractLsb' 0 8) (t.f.extractLsb' 8 2) (t.f.extractLsb' 10 3) (t.f.extractLsb' 13 2)) else .error .badField
  | 0x08 => if x.tlen == Form.h.tlen then let t := tailOf .h x.tail; coded (t.c == 0 && t.pr == 0 && t.imm == 0 && t.f == 0) ((num3? t.a).map fun q0 => .crow x.pri q0 t.b) else .error .badField
  | 0x09 => if x.tlen == Form.h.tlen then let t := tailOf .h x.tail; coded (t.c == 0 && t.pr == 0 && t.imm == 0 && t.f == 0) ((num3? x.pri).map fun q0 => .cput q0 t.a t.b) else .error .badField
  | _ => .error .unassigned

/-- The ops of class V (09 R218 to R220). -/
def decodeOpV (x : OpBits) : Except Reject Instr :=
  match x.opc.toNat with
  | 0x01 => if x.tlen == Form.h.tlen then let t := tailOf .h x.tail; coded (t.c == 0 && t.imm == 0) (((fcode? t.f).bind VKind.ofCode).map fun q0 => .vadd x.pri t.a t.b q0 (predOf t.pr)) else .error .badField
  | 0x02 => if x.tlen == Form.h.tlen then let t := tailOf .h x.tail; coded (t.c == 0 && t.imm == 0) (((fcode? t.f).bind VKind.ofCode).map fun q0 => .vsub x.pri t.a t.b q0 (predOf t.pr)) else .error .badField
  | 0x03 => if x.tlen == Form.h.tlen then let t := tailOf .h x.tail; coded (t.c == 0 && t.imm == 0) (((fcode? t.f).bind VKind.ofCode).map fun q0 => .vmul x.pri t.a t.b q0 (predOf t.pr)) else .error .badField
  | 0x04 => if x.tlen == Form.w.tlen then let t := tailOf .w x.tail; need (t.imm == 0 && t.f == 0) (.vfma x.pri t.a t.b t.c (predOf t.pr)) else .error .badField
  | 0x05 => if x.tlen == Form.h.tlen then let t := tailOf .h x.tail; coded (t.c == 0 && t.imm == 0) (((fcode? t.f).bind VKind.ofCode).map fun q0 => .vmax x.pri t.a t.b q0 (predOf t.pr)) else .error .badField
  | 0x06 => if x.tlen == Form.h.tlen then let t := tailOf .h x.tail; coded (t.c == 0 && t.imm == 0) (((fcode? t.f).bind VKind.ofCode).map fun q0 => .vmin x.pri t.a t.b q0 (predOf t.pr)) else .error .badField
  | 0x07 => if x.tlen == Form.h.tlen then let t := tailOf .h x.tail; coded (t.b == 0 && t.c == 0 && t.imm == 0) (((fcode? t.f).bind VKind.ofCode).map fun q0 => .vabs x.pri t.a q0 (predOf t.pr)) else .error .badField
  | 0x08 => if x.tlen == Form.w.tlen then let t := tailOf .w x.tail; coded (t.c == 0 && t.imm == 0 && t.f.extractLsb' 3 15 == 0) ((num3? x.pri).bind fun q0 => (CmpOp.ofCode ((0 : BitVec 1) ++ t.f.extractLsb' 0 2)).bind fun q1 => (VKind.ofCode ((0 : BitVec 4) ++ t.f.extractLsb' 2 1)).map fun q2 => .vcmp q0 t.a t.b q1 q2 (predOf t.pr)) else .error .badField
  | 0x09 => if x.tlen == Form.w.tlen then let t := tailOf .w x.tail; coded (t.imm == 0 && t.f == 0) ((num3? t.c).map fun q0 => .vsel x.pri t.a t.b q0 (predOf t.pr)) else .error .badField
  | 0x0A => if x.tlen == Form.w.tlen then let t := tailOf .w x.tail; coded (t.b == 0 && t.c == 0 && t.imm == 0) (((fcode? t.f).bind VcvtOp.ofCode).map fun q0 => .vcvt x.pri t.a q0 (predOf t.pr)) else .error .badField
  | 0x0B => if x.tlen == Form.h.tlen then let t := tailOf .h x.tail; coded (t.b == 0 && t.c == 0 && t.imm == 0) (((fcode? t.f).bind VKind.ofCode).map fun q0 => .vreds x.pri t.a q0 (predOf t.pr)) else .error .badField
  | 0x0C => if x.tlen == Form.h.tlen then let t := tailOf .h x.tail; coded (t.b == 0 && t.c == 0 && t.imm == 0) (((fcode? t.f).bind RedmOp.ofCode).map fun q0 => .vredm x.pri t.a q0 (predOf t.pr)) else .error .badField
  | 0x0D => if x.tlen == Form.h.tlen then let t := tailOf .h x.tail; need (t.b == 0 && t.c == 0 && t.imm == 0 && t.f == 0) (.vbcast x.pri t.a (predOf t.pr)) else .error .badField
  | 0x0E => if x.tlen == Form.l.tlen then let t := tailOf .l x.tail; coded (t.b == 0 && t.c == 0) ((VldMode.ofCode t.f).map fun q0 => .vld x.pri t.a t.imm q0 (predOf t.pr)) else .error .badField
  | 0x0F => if x.tlen == Form.l.tlen then let t := tailOf .l x.tail; coded (t.b == 0 && t.c == 0) ((VstMode.ofCode t.f).map fun q0 => .vst x.pri t.a t.imm q0 (predOf t.pr)) else .error .badField
  | 0x10 => if x.tlen == Form.l.tlen then let t := tailOf .l x.tail; coded (t.c == 0 && t.pr == 0 && t.f == 0) ((num3? t.a).map fun q0 => .btopk x.pri q0 t.b t.imm) else .error .badField
  | _ => .error .unassigned

/-- The ops of class X (09 R218 to R220). -/
def decodeOpX (x : OpBits) : Except Reject Instr :=
  match x.opc.toNat with
  | 0x01 => if x.tlen == Form.h.tlen then let t := tailOf .h x.tail; need (t.b == 0 && t.c == 0 && t.imm == 0 && t.f == 0) (.xexp2 x.pri t.a (predOf t.pr)) else .error .badField
  | 0x02 => if x.tlen == Form.h.tlen then let t := tailOf .h x.tail; need (t.b == 0 && t.c == 0 && t.imm == 0 && t.f == 0) (.xlog2 x.pri t.a (predOf t.pr)) else .error .badField
  | 0x03 => if x.tlen == Form.h.tlen then let t := tailOf .h x.tail; need (t.b == 0 && t.c == 0 && t.imm == 0 && t.f == 0) (.xrcp x.pri t.a (predOf t.pr)) else .error .badField
  | 0x04 => if x.tlen == Form.h.tlen then let t := tailOf .h x.tail; need (t.b == 0 && t.c == 0 && t.imm == 0 && t.f == 0) (.xrsq x.pri t.a (predOf t.pr)) else .error .badField
  | 0x05 => if x.tlen == Form.h.tlen then let t := tailOf .h x.tail; need (t.b == 0 && t.c == 0 && t.imm == 0 && t.f == 0) (.xtanh x.pri t.a (predOf t.pr)) else .error .badField
  | 0x06 => if x.tlen == Form.h.tlen then let t := tailOf .h x.tail; need (t.b == 0 && t.c == 0 && t.imm == 0 && t.f == 0) (.xsig x.pri t.a (predOf t.pr)) else .error .badField
  | _ => .error .unassigned

/-- The ops of class S (09 R218 to R220). -/
def decodeOpS (x : OpBits) : Except Reject Instr :=
  match x.opc.toNat with
  | 0x01 => if x.tlen == Form.e.tlen then coded (true) ((num4? x.pri).map fun q0 => .take q0) else .error .badField
  | 0x02 => if x.tlen == Form.e.tlen then coded (true) ((num4? x.pri).map fun q0 => .give q0) else .error .badField
  | 0x03 => if x.tlen == Form.e.tlen then coded (true) ((num4? x.pri).map fun q0 => .hrel q0) else .error .badField
  | 0x04 => if x.tlen == Form.h.tlen then let t := tailOf .h x.tail; need (t.c == 0 && t.pr == 0 && t.imm == 0 && t.f == 0) (.sadd x.pri t.a t.b) else .error .badField
  | 0x06 => if x.tlen == Form.h.tlen then let t := tailOf .h x.tail; need (t.c == 0 && t.pr == 0 && t.imm == 0 && t.f == 0) (.ssub x.pri t.a t.b) else .error .badField
  | 0x07 => if x.tlen == Form.h.tlen then let t := tailOf .h x.tail; need (t.c == 0 && t.pr == 0 && t.imm == 0 && t.f == 0) (.sand x.pri t.a t.b) else .error .badField
  | 0x08 => if x.tlen == Form.h.tlen then let t := tailOf .h x.tail; need (t.c == 0 && t.pr == 0 && t.imm == 0 && t.f == 0) (.sshl x.pri t.a t.b) else .error .badField
  | 0x05 => if x.tlen == Form.l.tlen then let t := tailOf .l x.tail; need (t.b == 0 && t.c == 0 && t.pr == 0 && t.f == 0) (.saddi x.pri t.a t.imm) else .error .badField
  | 0x09 => if x.tlen == Form.l.tlen then let t := tailOf .l x.tail; need (t.a == 0 && t.b == 0 && t.c == 0 && t.pr == 0 && t.f == 0) (.sldi x.pri t.imm) else .error .badField
  | 0x0A => if x.tlen == Form.l.tlen then let t := tailOf .l x.tail; need (t.b == 0 && t.c == 0 && t.pr == 0 && t.f == 0) (.sld x.pri t.a t.imm) else .error .badField
  | 0x0B => if x.tlen == Form.l.tlen then let t := tailOf .l x.tail; need (t.b == 0 && t.c == 0 && t.pr == 0 && t.f == 0) (.sst x.pri t.a t.imm) else .error .badField
  | 0x0C => if x.tlen == Form.t.tlen then coded (x.pri == 0 && x.tail.getLsbD 15 == false) ((branchTail? x.tail).map fun q0 => .br q0.2.1 q0.2.2) else .error .badField
  | 0x0D => if x.tlen == Form.t.tlen then coded (true) ((branchTail? x.tail).map fun q0 => .brc x.pri q0.1 q0.2.1 q0.2.2) else .error .badField
  | 0x0E => if x.tlen == Form.t.tlen then coded (x.tail.getLsbD 15 == false) ((branchTail? x.tail).map fun q0 => .loop x.pri q0.2.1 q0.2.2) else .error .badField
  | 0x0F => if x.tlen == Form.e.tlen then need (x.pri == 0) .drain else .error .badField
  | 0x10 => if x.tlen == Form.w.tlen then let t := tailOf .w x.tail; need (t.a == 0 && t.b == 0 && t.c == 0 && t.pr == 0 && t.imm.extractLsb' 6 26 == 0 && t.f == 0) (.signal x.pri (t.imm.extractLsb' 0 6)) else .error .badField
  | 0x12 => if x.tlen == Form.e.tlen then need (x.pri == 0) .halt else .error .badField
  | 0x13 => if x.tlen == Form.e.tlen then need (x.pri == 0) .snop else .error .badField
  | 0x11 => if x.tlen == Form.w.tlen then let t := tailOf .w x.tail; coded (t.b == 0 && t.c == 0 && t.pr == 0 && t.imm == 0) ((TileReg.ofCode t.a).bind fun q0 => ((fcode? t.f).bind HdrField.ofCode).map fun q1 => .hdrf x.pri q0 q1) else .error .badField
  | _ => .error .unassigned

/-- The op of a head and tail, or why there is none (09 R222). -/
def decodeOp (x : OpBits) : Except Reject Instr :=
  match (match x.cls.toNat with
    | 0 => decodeOpM x
    | 1 => decodeOpV x
    | 2 => decodeOpX x
    | _ => decodeOpS x) with
  | .ok i => if i.wf then .ok i else .error .illFormed
  | .error r => .error r

/-- The head and tail of an MX op; other constructors have none. -/
def encodeOp (i : Instr) : Option OpBits :=
  match i with
  | .add _ _ _ => none
  | .sub _ _ _ => none
  | .mul _ _ _ => none
  | .mulh _ _ _ => none
  | .mulhu _ _ _ => none
  | .div _ _ _ => none
  | .divu _ _ _ => none
  | .rem _ _ _ => none
  | .remu _ _ _ => none
  | .and _ _ _ => none
  | .or _ _ _ => none
  | .xor _ _ _ => none
  | .shl _ _ _ => none
  | .shr _ _ _ => none
  | .sra _ _ _ => none
  | .rot _ _ _ => none
  | .clz _ _ => none
  | .ctz _ _ => none
  | .popc _ _ => none
  | .min _ _ _ => none
  | .max _ _ _ => none
  | .minu _ _ _ => none
  | .maxu _ _ _ => none
  | .slt _ _ _ => none
  | .sltu _ _ _ => none
  | .sel _ _ _ _ => none
  | .hash _ _ _ => none
  | .crng _ _ _ => none
  | .loc _ _ _ => none
  | .peer _ _ _ => none
  | .peerWrap _ _ _ => none
  | .peerLoc _ _ => none
  | .jr _ _ => none
  | .swapws _ _ => none
  | .addi _ _ _ => none
  | .andi _ _ _ => none
  | .ori _ _ _ => none
  | .xori _ _ _ => none
  | .slti _ _ _ => none
  | .ldhi _ _ => none
  | .addpc _ _ => none
  | .shli _ _ _ => none
  | .shri _ _ _ => none
  | .srai _ _ _ => none
  | .roti _ _ _ => none
  | .bfx _ _ _ _ => none
  | .bfi _ _ _ _ => none
  | .beq _ _ _ => none
  | .bne _ _ _ => none
  | .blt _ _ _ => none
  | .bge _ _ _ => none
  | .bltu _ _ _ => none
  | .bgeu _ _ _ => none
  | .jmp _ => none
  | .call _ => none
  | .lb _ _ _ => none
  | .lbu _ _ _ => none
  | .lh _ _ _ => none
  | .lhu _ _ _ => none
  | .lw _ _ _ => none
  | .lwu _ _ _ => none
  | .ld _ _ _ => none
  | .lq _ _ _ => none
  | .sb _ _ _ => none
  | .sh _ _ _ => none
  | .sw _ _ _ => none
  | .sd _ _ _ => none
  | .sq _ _ _ => none
  | .pfl _ _ _ => none
  | .lbit _ _ _ _ _ => none
  | .sbit _ _ _ _ => none
  | .memordLb _ _ _ => none
  | .memordLbu _ _ _ => none
  | .memordLh _ _ _ => none
  | .memordLhu _ _ _ => none
  | .memordLw _ _ _ => none
  | .memordLwu _ _ _ => none
  | .memordLd _ _ _ => none
  | .memordLq _ _ _ => none
  | .memordSb _ _ _ => none
  | .memordSh _ _ _ => none
  | .memordSw _ _ _ => none
  | .memordSd _ _ _ => none
  | .memordSq _ _ _ => none
  | .amoAdd _ _ _ _ _ _ => none
  | .amoAnd _ _ _ _ _ _ => none
  | .amoOr _ _ _ _ _ _ => none
  | .amoXor _ _ _ _ _ _ => none
  | .amoMin _ _ _ _ _ _ => none
  | .amoMax _ _ _ _ _ _ => none
  | .amoMinu _ _ _ _ _ _ => none
  | .amoMaxu _ _ _ _ _ _ => none
  | .amoSwp _ _ _ _ _ _ => none
  | .amoFadd _ _ _ _ _ _ => none
  | .amocas _ _ _ _ _ _ => none
  | .fence _ _ => none
  | .icsync _ => none
  | .fadd _ _ _ _ _ => none
  | .fsub _ _ _ _ _ => none
  | .fmul _ _ _ _ _ => none
  | .fma _ _ _ _ _ => none
  | .fmin _ _ _ _ => none
  | .fmax _ _ _ _ => none
  | .fcmp _ _ _ _ _ => none
  | .fcvt _ _ _ _ => none
  | .fsgn _ _ _ _ _ => none
  | .fdiv _ _ _ _ _ => none
  | .fsqrt _ _ _ _ => none
  | .frcp _ _ _ _ => none
  | .frsq _ _ _ _ => none
  | .fexp2 _ _ _ _ => none
  | .flog2 _ _ _ _ => none
  | .padd _ _ _ _ _ _ => none
  | .psub _ _ _ _ _ _ => none
  | .pmul _ _ _ _ _ _ => none
  | .pfma _ _ _ _ _ _ => none
  | .pmin _ _ _ _ _ => none
  | .pmax _ _ _ _ _ => none
  | .pdot _ _ _ _ _ => none
  | .pcvt _ _ _ _ => none
  | .pshuf _ _ _ => none
  | .pcmp _ _ _ _ _ => none
  | .lacz _ => none
  | .laca _ _ _ => none
  | .lacr _ _ => none
  | .topen _ _ _ => none
  | .trow _ _ _ _ => none
  | .telm _ _ _ _ => none
  | .tfill _ _ _ => none
  | .seal _ _ _ => none
  | .tfree _ => none
  | .thdr _ _ _ => none
  | .xcp _ _ _ => none
  | .wdq _ _ _ => none
  | .ctwait _ _ => none
  | .ctany _ _ => none
  | .ctff _ _ => none
  | .ctrd _ _ _ => none
  | .enq _ _ _ _ => none
  | .deq _ _ _ _ => none
  | .qinfo _ _ => none
  | .ldf _ _ => none
  | .ldfNw _ _ => none
  | .stf _ _ _ => none
  | .fclr _ _ => none
  | .spawn _ _ => none
  | .spawnPeer _ _ _ => none
  | .susp _ _ => none
  | .suspRequeue _ => none
  | .endTask => none
  | .gld _ _ _ => none
  | .gldm _ _ _ _ => none
  | .gst _ _ _ _ => none
  | .garr _ _ => none
  | .gwait _ _ _ => none
  | .evsend _ _ => none
  | .wait _ _ => none
  | .yield _ => none
  | .rdsr _ _ => none
  | .wrsr _ _ => none
  | .trap _ => none
  | .eret => none
  | .nop => none
  | .mma c h t => some ⟨0, 1, Form.h.tlen, (0 : BitVec 2) ++ c, tailBits .h ⟨0, 0, 0, 0, t.code, (0 : BitVec 1) ++ h⟩⟩
  | .mmaz c h t => some ⟨0, 2, Form.h.tlen, (0 : BitVec 2) ++ c, tailBits .h ⟨0, 0, 0, 0, t.code, (0 : BitVec 1) ++ h⟩⟩
  | .wload b h => some ⟨0, 3, Form.h.tlen, (0 : BitVec 3) ++ b, tailBits .h ⟨0, 0, 0, 0, 0, (0 : BitVec 1) ++ h⟩⟩
  | .wdrop b => some ⟨0, 4, Form.e.tlen, (0 : BitVec 3) ++ b, 0⟩
  | .czero c e rows cols => some ⟨0, 5, Form.l.tlen, (0 : BitVec 2) ++ c, tailBits .l ⟨((0 : BitVec 9) ++ cols ++ (0 : BitVec 1) ++ rows ++ e), 0, 0, 0, 0, 0⟩⟩
  | .cload c h => some ⟨0, 6, Form.h.tlen, (0 : BitVec 2) ++ c, tailBits .h ⟨0, 0, 0, 0, 0, (0 : BitVec 1) ++ h⟩⟩
  | .cstore c sa disp e ly sl sf => some ⟨0, 7, Form.l.tlen, (0 : BitVec 2) ++ c, tailBits .l ⟨disp, ((0 : BitVec 3) ++ sf ++ sl ++ ly ++ e), 0, 0, 0, sa⟩⟩
  | .crow v c sb => some ⟨0, 8, Form.h.tlen, v, tailBits .h ⟨0, 0, 0, 0, sb, (0 : BitVec 2) ++ c⟩⟩
  | .cput c v sb => some ⟨0, 9, Form.h.tlen, (0 : BitVec 2) ++ c, tailBits .h ⟨0, 0, 0, 0, sb, v⟩⟩
  | .vadd v a b k p => some ⟨1, 1, Form.h.tlen, v, tailBits .h ⟨0, ((0 : BitVec 13) ++ k.code), predBits p, 0, b, a⟩⟩
  | .vsub v a b k p => some ⟨1, 2, Form.h.tlen, v, tailBits .h ⟨0, ((0 : BitVec 13) ++ k.code), predBits p, 0, b, a⟩⟩
  | .vmul v a b k p => some ⟨1, 3, Form.h.tlen, v, tailBits .h ⟨0, ((0 : BitVec 13) ++ k.code), predBits p, 0, b, a⟩⟩
  | .vfma v a b c p => some ⟨1, 4, Form.w.tlen, v, tailBits .w ⟨0, 0, predBits p, c, b, a⟩⟩
  | .vmax v a b k p => some ⟨1, 5, Form.h.tlen, v, tailBits .h ⟨0, ((0 : BitVec 13) ++ k.code), predBits p, 0, b, a⟩⟩
  | .vmin v a b k p => some ⟨1, 6, Form.h.tlen, v, tailBits .h ⟨0, ((0 : BitVec 13) ++ k.code), predBits p, 0, b, a⟩⟩
  | .vabs v a k p => some ⟨1, 7, Form.h.tlen, v, tailBits .h ⟨0, ((0 : BitVec 13) ++ k.code), predBits p, 0, 0, a⟩⟩
  | .vcmp q a b cc k p => some ⟨1, 8, Form.w.tlen, (0 : BitVec 2) ++ q, tailBits .w ⟨0, ((0 : BitVec 15) ++ k.code.extractLsb' 0 1 ++ cc.code.extractLsb' 0 2), predBits p, 0, b, a⟩⟩
  | .vsel v a b q p => some ⟨1, 9, Form.w.tlen, v, tailBits .w ⟨0, 0, predBits p, (0 : BitVec 2) ++ q, b, a⟩⟩
  | .vcvt v a f p => some ⟨1, 10, Form.w.tlen, v, tailBits .w ⟨0, ((0 : BitVec 13) ++ f.code), predBits p, 0, 0, a⟩⟩
  | .vreds s a k p => some ⟨1, 11, Form.h.tlen, s, tailBits .h ⟨0, ((0 : BitVec 13) ++ k.code), predBits p, 0, 0, a⟩⟩
  | .vredm s a f p => some ⟨1, 12, Form.h.tlen, s, tailBits .h ⟨0, ((0 : BitVec 13) ++ f.code), predBits p, 0, 0, a⟩⟩
  | .vbcast v sa p => some ⟨1, 13, Form.h.tlen, v, tailBits .h ⟨0, 0, predBits p, 0, 0, sa⟩⟩
  | .vld v sa disp f p => some ⟨1, 14, Form.l.tlen, v, tailBits .l ⟨disp, f.code, predBits p, 0, 0, sa⟩⟩
  | .vst v sa disp f p => some ⟨1, 15, Form.l.tlen, v, tailBits .l ⟨disp, f.code, predBits p, 0, 0, sa⟩⟩
  | .btopk s c sb disp => some ⟨1, 16, Form.l.tlen, s, tailBits .l ⟨disp, 0, 0, 0, sb, (0 : BitVec 2) ++ c⟩⟩
  | .xexp2 v a p => some ⟨2, 1, Form.h.tlen, v, tailBits .h ⟨0, 0, predBits p, 0, 0, a⟩⟩
  | .xlog2 v a p => some ⟨2, 2, Form.h.tlen, v, tailBits .h ⟨0, 0, predBits p, 0, 0, a⟩⟩
  | .xrcp v a p => some ⟨2, 3, Form.h.tlen, v, tailBits .h ⟨0, 0, predBits p, 0, 0, a⟩⟩
  | .xrsq v a p => some ⟨2, 4, Form.h.tlen, v, tailBits .h ⟨0, 0, predBits p, 0, 0, a⟩⟩
  | .xtanh v a p => some ⟨2, 5, Form.h.tlen, v, tailBits .h ⟨0, 0, predBits p, 0, 0, a⟩⟩
  | .xsig v a p => some ⟨2, 6, Form.h.tlen, v, tailBits .h ⟨0, 0, predBits p, 0, 0, a⟩⟩
  | .take h => some ⟨3, 1, Form.e.tlen, (0 : BitVec 1) ++ h, 0⟩
  | .give h => some ⟨3, 2, Form.e.tlen, (0 : BitVec 1) ++ h, 0⟩
  | .hrel h => some ⟨3, 3, Form.e.tlen, (0 : BitVec 1) ++ h, 0⟩
  | .sadd s a b => some ⟨3, 4, Form.h.tlen, s, tailBits .h ⟨0, 0, 0, 0, b, a⟩⟩
  | .ssub s a b => some ⟨3, 6, Form.h.tlen, s, tailBits .h ⟨0, 0, 0, 0, b, a⟩⟩
  | .sand s a b => some ⟨3, 7, Form.h.tlen, s, tailBits .h ⟨0, 0, 0, 0, b, a⟩⟩
  | .sshl s a b => some ⟨3, 8, Form.h.tlen, s, tailBits .h ⟨0, 0, 0, 0, b, a⟩⟩
  | .saddi s a imm => some ⟨3, 5, Form.l.tlen, s, tailBits .l ⟨imm, 0, 0, 0, 0, a⟩⟩
  | .sldi s imm => some ⟨3, 9, Form.l.tlen, s, tailBits .l ⟨imm, 0, 0, 0, 0, 0⟩⟩
  | .sld s a disp => some ⟨3, 10, Form.l.tlen, s, tailBits .l ⟨disp, 0, 0, 0, 0, a⟩⟩
  | .sst s a disp => some ⟨3, 11, Form.l.tlen, s, tailBits .l ⟨disp, 0, 0, 0, 0, a⟩⟩
  | .br line bun => some ⟨3, 12, Form.t.tlen, 0, branchTail false line bun⟩
  | .brc s z line bun => some ⟨3, 13, Form.t.tlen, s, branchTail z line bun⟩
  | .loop s line bun => some ⟨3, 14, Form.t.tlen, s, branchTail false line bun⟩
  | .drain => some ⟨3, 15, Form.e.tlen, 0, 0⟩
  | .signal s bit => some ⟨3, 16, Form.w.tlen, s, tailBits .w ⟨((0 : BitVec 26) ++ bit), 0, 0, 0, 0, 0⟩⟩
  | .halt => some ⟨3, 18, Form.e.tlen, 0, 0⟩
  | .snop => some ⟨3, 19, Form.e.tlen, 0, 0⟩
  | .hdrf s t f => some ⟨3, 17, Form.w.tlen, s, tailBits .w ⟨0, ((0 : BitVec 13) ++ f.code), 0, 0, 0, t.code⟩⟩
  | .pendingWriteLand _ _ => none
  | .mOpCompletion _ _ => none
  | .memoryReply _ _ => none
  | .storePathPerform _ _ => none
  | .sfuResult _ => none
  | .yieldEnd _ => none
  | .timerExpiry _ _ => none
  | .servePendingRequest _ _ => none
  | .bind _ => none
  | .handlerBind _ _ => none
  | .faultQueueRetry _ => none
  | .crewRetirement _ => none
  | .clusterDrainEnd _ => none
  | .launchSelection _ => none
  | .wdqGrant => none
  | .copyQuantum _ _ => none
  | .gldmResult _ _ => none
  | .preemptionEvent => none
  | .copyOut => none
  | .resumeCopyBack => none
  | .activate => none
  | .preempt => none
  | .resume => none
  | .haltCommand => none
  | .deactivate => none
  | .mxresume _ _ _ => none
  | .mxhalt _ _ _ => none
  | .freeze _ _ => none
  | .thaw _ _ => none
  | .release _ _ => none
  | .tlbinvPage _ _ _ => none
  | .tlbinvAsid _ _ => none
  | .tlbinvAll _ => none
  | .doorbell _ _ _ => none
  | .acq _ => none
  | .rel _ => none
  | .stage _ _ => none
  | .fabricLogClr _ _ => none
  | .identity _ _ => none
  | .certs _ _ => none
  | .attest _ _ => none
  | .fwstage _ _ => none
  | .fwcommit _ _ _ => none
  | .registerWrite _ _ _ => none
  | .powerGood => none
  | .cxlHotReset => none
  | .romCheckEnd _ => none
  | .bringUpEnd _ => none
  | .linkDown _ => none
  | .telemetryRefresh _ => none
  | .criticalTrip => none
  | .controlStateEcc _ => none
  | .fetchFill _ _ => none
  | .dxlFlitReceive _ => none
  | .remoteAccess => none
  | .postedWriteAck _ _ _ => none
  | .deviceLost _ => none
  | .workRequestPost _ _ _ => none
  | .rdmaWrite _ _ _ _ => none
  | .rdmaWriteWithImmediate _ _ _ _ _ => none
  | .rdmaRead _ _ _ _ => none
  | .send _ _ _ _ => none
  | .completionEntry _ _ _ _ => none
  | .cxlMemRead _ _ => none
  | .cxlMemWrite _ _ _ _ => none
  | .bar2Read _ _ _ => none
  | .bar2Write _ _ _ => none
  | .cxlCacheSnoop _ => none
  | .illegalWord _ => none
  | .fetchFault => none
  | .illegalBundle => none
  | .backInvalidateAnswer _ => none
  | .descriptorRefetch _ => none

/-- Bytes of a tail by its TLEN (09 R213). -/
def tailLen (t : BitVec 2) : Nat :=
  match t.toNat with
  | 0 => 0
  | 1 => 2
  | 2 => 4
  | _ => 8

/-- The 16-bit head at op position j of a line (09 R212). -/
def headAt (line : BitVec 512) (j : Nat) : BitVec 16 := line.extractLsb' (16 + 16 * j) 16

/-- STOP of a head (09 R213). -/
def stopBit (h : BitVec 16) : Bool := h.getLsbD 15

/-- The bits of a head with the tail that ends `off` bytes before the line's end (09 R213, R214). -/
def opBitsAt (line : BitVec 512) (h : BitVec 16) (off : Nat) : OpBits :=
  let n := tailLen (h.extractLsb' 5 2)
  ⟨h.extractLsb' 13 2, h.extractLsb' 7 6, h.extractLsb' 5 2, h.extractLsb' 0 5,
    BitVec.ofNat 64 ((line >>> (8 * (64 - off - n))).toNat % 2 ^ (8 * n))⟩

/-- The heads of a line with the offset of each tail. -/
def headsFrom (line : BitVec 512) : Nat → Nat → Nat → List (BitVec 16 × Nat)
  | 0, _, _ => []
  | n + 1, j, off =>
    let h := headAt line j
    (h, off) :: headsFrom line n (j + 1) (off + tailLen (h.extractLsb' 5 2))

/-- The ops of bundle `k`: heads grouped by STOP (09 R215). -/
def bundleHeads : List (BitVec 16 × Nat) → Nat → List (BitVec 16 × Nat)
  | [], _ => []
  | x :: l, 0 => if stopBit x.1 then [x] else x :: bundleHeads l 0
  | x :: l, k + 1 => bundleHeads l (if stopBit x.1 then k else k + 1)

/-- Ops of a class in a bundle. -/
def classCount (l : List (BitVec 16 × Nat)) (c : Nat) : Nat := (l.filter (fun x => (x.1.extractLsb' 13 2).toNat = c)).length

/-- The registers that a bundle's ops name as destinations: class of register and number (09 R222). -/
def destOf (i : Instr) : Option (Nat × Nat) :=
  match encodeOp i with
  | none => none
  | some x =>
    match x.cls.toNat, x.opc.toNat with
    | 0, 3 | 0, 4 => some (1, x.pri.toNat)
    | 0, 7 => none
    | 0, 8 => some (3, x.pri.toNat)
    | 0, _ => some (0, x.pri.toNat)
    | 1, 8 => some (4, x.pri.toNat)
    | 1, 11 | 1, 12 => some (5, x.pri.toNat)
    | 1, 15 | 1, 16 => none
    | 1, _ => some (3, x.pri.toNat)
    | 2, _ => some (3, x.pri.toNat)
    | _, 1 => some (2, x.pri.toNat)
    | _, 4 | _, 5 | _, 6 | _, 7 | _, 8 | _, 9 | _, 10 | _, 14 | _, 17 => some (5, x.pri.toNat)
    | _, _ => none

/-- No register stands twice. -/
def noRepeat : List (Nat × Nat) → Bool
  | [] => true
  | x :: l => !l.contains x && noRepeat l

/-- Every op of the heads, or the first reason why one is none. -/
def decodeHeads (line : BitVec 512) : List (BitVec 16 × Nat) → Except Reject (List Instr)
  | [] => .ok []
  | x :: l =>
    match decodeOp (opBitsAt line x.1 x.2), decodeHeads line l with
    | .ok i, .ok is => .ok (i :: is)
    | .error r, _ => .error r
    | _, .error r => .error r

/-- The checks of a line that apply to each of its bundles (09 R222, scope Line). -/
def lineOk (line : BitVec 512) : Bool :=
  let nops := (line.extractLsb' 0 5).toNat
  let nbun := (line.extractLsb' 5 5).toNat
  let tb := (line.extractLsb' 10 6).toNat
  let hs := headsFrom line nops 0 0
  nops != 0 && nbun != 0 && nbun ≤ nops && 2 + 2 * nops + tb ≤ 64 &&
    tb == (hs.map (fun x => tailLen (x.1.extractLsb' 5 2))).sum &&
    (hs.filter (fun x => stopBit x.1)).length == nbun && (hs.getLast?.map (fun x => stopBit x.1)).getD false

/-- NBUN of a line (09 R212). -/
def lineBundles (line : BitVec 512) : Nat := (line.extractLsb' 5 5).toNat

/-- The ops of the bundle `k` of a line, in head order (09 R215, R222). -/
def decodeBundle (line : BitVec 512) (k : Nat) : Except Reject (List Instr) :=
  if !lineOk line || lineBundles line ≤ k then .error .badLine
  else
    let hs := bundleHeads (headsFrom line (line.extractLsb' 0 5).toNat 0 0) k
    if classCount hs 0 > 1 || classCount hs 1 > 2 || classCount hs 2 > 1 || classCount hs 3 > 1 then .error .badLine
    else
      match decodeHeads line hs with
      | .error r => .error r
      | .ok ops => if noRepeat (ops.filterMap destOf) then .ok ops else .error .badLine

/-- A line that holds one bundle of one op (09 R212 to R214). -/
def lineOfOp (x : OpBits) : BitVec 512 :=
  let n := tailLen x.tlen
  BitVec.ofNat 512 ((1 + 32 * 1 + 1024 * n) + 65536 * ((1 : BitVec 1) ++ x.cls ++ x.opc ++ x.tlen ++ x.pri).toNat +
    2 ^ (8 * (64 - n)) * (x.tail.toNat % 2 ^ (8 * n)))

/-- The bytes of an instruction's words: four for a swarm word, a 64-byte line for an MX op, none for an event. -/
def encode (i : Instr) : Option (Nat × Nat) :=
  match encodeSwarm i, encodeOp i with
  | some w, _ => some (32, w.toNat)
  | none, some x => some (512, (lineOfOp x).toNat)
  | none, none => none

/-- The instruction that the decoder reads from an instruction whose bits are `w`, numbered as the opcode table numbers them. A
swarm word is the table's 32 bits; 512 bits are an MX line whose first bundle is one op. -/
def decodeTableWord (nbits w : Nat) : Option Instr :=
  if nbits = 512 then
    match decodeBundle (BitVec.ofNat 512 w) 0 with
    | .ok [i] => some i
    | _ => none
  else if nbits = 0 ∨ 32 < nbits then none
  else
    match decodeSwarm (BitVec.ofNat 32 (w % 2 ^ nbits)) with
    | .ok i => some i
    | .error _ => none

end Sys2Proof
end

