-- ==== Sys2Proof/Machine/Glean.lean ====
section
/-! DEFINITION. Groups, glean loads, multicast stores and barriers (08 R193 to R204). -/
namespace Sys2Proof.Machine

/-- A resolved group (08 R194): the barrier's descriptor (none for group 0) and the members with absent ones. -/
structure Group where
  desc : Option Nat
  members : List Member
  deriving DecidableEq, Repr

/-- Group number of a group address (08 R193). -/
def groupOf (ga : Word) : Nat := field ga 47 32
/-- Its offset. -/
def groupOff (ga : Word) : Nat := field ga 22 0

/-- The members of an entry list under a mask (08 R194). -/
def listMembers (n : Nat) (bs : List Byte) (mask : Option (List Byte)) : List Member :=
  (List.range n).map (fun r =>
    let e := leNat ((bs.drop (4 * r)).take 4)
    let here := match mask with
      | none => true
      | some m => (m.getD (r / 8) 0).getLsbD (r % 8)
    ⟨r, bits e 7 0, bits e 17 8, here⟩)

/-- Whether a descriptor's fields are in range (08 R194). -/
def groupOk (w : List Word) : Bool :=
  let g := fun i => w.getD i 0
  (g 0).getLsbD 63 && 1 ≤ field (g 0) 10 0 && field (g 0) 10 0 ≤ 1024 && field (g 0) 62 11 == 0 && field (g 4) 63 11 == 0 &&
  (w.drop 5).all (· == 0) && (g 1).toNat % 4 == 0 && (g 2).toNat % 8 == 0

/-- The members of group 0 (08 R194). -/
def State.spanMembers (s : State) (c : Nat) : List Member :=
  match s.span? (((s.crew? (clusterOf c)).map (·.1)).getD 0) with
  | some p => (List.range p.crews.length).map (fun r => ⟨r, (p.crews.getD r ⟨0, true⟩).cluster, s.ctl.devid, true⟩)
  | none => []

/-- The member list and mask of a descriptor, read as ordinary loads. The list is read, and its entries tested, before the mask is read.
DESIGN CHOICE (entry 68); unsafe. -/
def State.readMembers (s : State) (c : Nat) (x : Ctx) (w : List Word) : Except Exec (State × List Member) :=
  let n := field (w.getD 0 0) 10 0
  let lst := w.getD 1 0
  let maskp := w.getD 2 0
  match s.readBytes c x lst (4 * n) with
  | .error e => .error e
  | .ok (s1, bs) =>
    match (List.range n).find? (fun r => bits (leNat ((bs.drop (4 * r)).take 4)) 31 18 != 0) with
    | some r => .error (.trap s1 (flt .bounds (lst + word (4 * r))))
    | none =>
      if maskp = 0 then .ok (s1, listMembers n bs none)
      else match s1.readBytes c x maskp 128 with
        | .error e => .error e
        | .ok (s2, m) => .ok (s2, listMembers n bs (some m))

/-- A group resolved (08 R193, R194); its faults are precise. -/
def State.resolve (s : State) (c : Nat) (x : Ctx) (ga : Word) : Except Exec (State × Group) :=
  if field ga 63 48 != 0 || field ga 31 23 != 0 then .error (.trap s (flt .bounds ga))
  else if groupOf ga = 0 then .ok (s, ⟨none, s.spanMembers c⟩)
  else
    let va := (x.gtb &&& ~~~(63 : Word)) + word (64 * groupOf ga)
    match s.checkPart (s.whoOf c x) { Need.load with hit := true } hbmOnly va 64 with
    | (s1, .fault f) => .error (.trap s1 f)
    | (s1, .held) => .error (again s1)
    | (s1, .ok pa) =>
      match s1.gather c x va [(pa, 64)] with
      | .error e => .error e
      | .ok (s2, bs) =>
        let w := (List.range 8).map (recWord bs)
        if !groupOk w then .error (.trap s2 (flt .bounds va))
        else match s2.readMembers c x w with
          | .error e => .error e
          | .ok (s3, ms) => .ok (s3, ⟨some pa, ms⟩)

/-- The group scope (08 R195). -/
def State.groupScope (s : State) (c : Nat) (g : Group) : Scope :=
  if !g.members.all (fun m => m.dev == s.ctl.devid) then .domain
  else if g.members.all (fun m => m.cluster == clusterOf c) then .crew
  else if g.members.all (fun m => dieOfCluster m.cluster == dieOfCluster (clusterOf c)) then .die
  else .pkg

/-- Why a member's scratchpad cannot be reached (08 R196, R202); `span` is given for group 0. -/
def State.memberFault (s : State) (region : Nat) (span : Option Nat) (m : Member) : Option Nat :=
  let byOwner := match (s.cluster m.cluster).owner with
    | .crew _ _ => if s.crewRegion? m.cluster = some region then none else some Code.xlateProt.num
    | .draining _ _ => some Code.peerGone.num
    | .free => some Code.xlateProt.num
  match span with
  | none => byOwner
  | some n =>
    match s.span? n with
    | some p => if (p.crews.getD m.rank ⟨0, true⟩).retired then some Code.peerGone.num else byOwner
    | none => some Code.peerGone.num

/-- One member read of n bytes at this device (08 R196). DEDUCED (entry 42); unsafe. -/
def State.memberRead (s : State) (region : Nat) (span : Option Nat) (off n : Nat) (m : Member) : MemberRead :=
  match s.memberFault region span m with
  | some k => ⟨m.rank, 0, some k⟩
  | none =>
    let a := padAddr m.cluster off
    if badIn s.bad a n then ⟨m.rank, 0, some Code.eccUncorr.num⟩ else ⟨m.rank, BitVec.ofNat 512 (s.peek a n), none⟩

/-- Whether a member's read has been made. -/
def hasRead (got : List MemberRead) (m : Member) : Bool := got.any (fun g => g.rank == m.rank)

/-- Present members on this device whose reads are still to be made. -/
def State.unreadHere (s : State) (ms : List Member) (got : List MemberRead) : List Member :=
  ms.filter (fun m => m.here && m.dev == s.ctl.devid && !hasRead got m)
/-- Present members of other devices whose reads are still to be answered. -/
def State.unreadAway (s : State) (ms : List Member) (got : List MemberRead) : List Member :=
  ms.filter (fun m => m.here && m.dev != s.ctl.devid && !hasRead got m)

/-- Members of other devices that a route reaches (14 R332, R334; 15 R350). -/
def State.reached (s : State) (ms : List Member) : List Member := ms.filter (fun m => s.routed m.dev)

/-- The reads of members of other devices that no route reaches: they fail with XLATE_PROT. DEDUCED (entry 70); unsafe. -/
def State.unroutedReads (s : State) (ms : List Member) : List MemberRead :=
  ((s.unreadAway ms []).filter (fun m => !s.routed m.dev)).map (fun m => ⟨m.rank, 0, some Code.xlateProt.num⟩)

/-- One request to each of some members of other devices, which fans out in rank order (14 R329). -/
def State.sendEach (s : State) (x : Ctx) (off : Nat) (k : DxlKind) (ms : List Member) : State :=
  ms.foldl (fun t m => t.send x.region (x.level == .user) false (m.dev * Config.localEnd + padAddr m.cluster off) k) s

/-- What a reply of another device says of a member. -/
def replyRead (rank : Nat) (r : Reply) : Option MemberRead :=
  match r with
  | .data v => some ⟨rank, v, none⟩
  | .fault code _ _ => some ⟨rank, 0, some code⟩
  | .here => none

/-- A lane operation on two lanes of 32 bits. -/
def twoLanes (f : Nat → Nat → Nat) (x y : Word) : Word :=
  word (f (field x 31 0) (field y 31 0) % 2 ^ 32 + f (field x 63 32) (field y 63 32) % 2 ^ 32 * 2 ^ 32)

/-- Combine (08 R197). -/
def gleanCombine (op : GleanOp) (x y : Word) : Word :=
  match op with
  | .addS => twoLanes (fun a b => (fp32.addOp 0 a b).1) x y
  | .addD => word (fp64.addOp 0 x.toNat y.toNat).1
  | .addW => twoLanes (fun a b => a + b) x y
  | .addL => x + y
  | .minS => twoLanes (fun a b => (fp32.minMax false a b).1) x y
  | .minW => twoLanes (fun a b => if (BitVec.ofNat 32 a).sle (BitVec.ofNat 32 b) then a else b) x y
  | .maxS => twoLanes (fun a b => (fp32.minMax true a b).1) x y
  | .maxW => twoLanes (fun a b => if (BitVec.ofNat 32 a).sle (BitVec.ofNat 32 b) then b else a) x y
  | .and => x &&& y
  | .or => x ||| y
  | .xor => x ^^^ y

/-- Identity (08 R197). -/
def gleanIdentity (op : GleanOp) : Word :=
  match op with
  | .addS => 0
  | .addD => 0
  | .addW => 0
  | .addL => 0
  | .minS => 0x7F8000007F800000
  | .minW => 0x7FFFFFFF7FFFFFFF
  | .maxS => 0xFF800000FF800000
  | .maxW => 0x8000000080000000
  | .and => 0xFFFFFFFFFFFFFFFF
  | .or => 0
  | .xor => 0

/-- A node of the tree (08 R198). -/
def gleanNode (op : GleanOp) (x y : Option Word) : Option Word :=
  match x, y with
  | none, _ => y
  | some _, none => x
  | some a, some b => some (gleanCombine op a b)

/-- One level of the tree. -/
def gleanLevel (op : GleanOp) : List (Option Word) → List (Option Word)
  | x :: y :: l => gleanNode op x y :: gleanLevel op l
  | [x] => [x]
  | [] => []

/-- The tree over the members in rank order (08 R198). -/
def gleanTree (op : GleanOp) : Nat → List (Option Word) → Word
  | 0, v => (v.headD none).getD (gleanIdentity op)
  | fuel + 1, v => gleanTree op fuel (gleanLevel op v)

/-- The value of doubleword i of the members, combined. -/
def gleanValue (op : GleanOp) (ms : List Member) (got : List MemberRead) (i : Nat) : Word :=
  gleanTree op 11 (ms.map (fun m =>
    if m.here then (got.find? (fun g => g.rank == m.rank)).map (fun g => word (field g.value (64 * i + 63) (64 * i))) else none))

/-- The lowest failing rank and its code (08 R199). -/
def gleanFailed (got : List MemberRead) : Option (Nat × Nat) :=
  got.foldl (fun acc g =>
    match g.failed, acc with
    | none, _ => acc
    | some k, none => some (g.rank, k)
    | some k, some (r, j) => if g.rank < r then some (g.rank, k) else some (r, j)) none

/-- The span of a group address, for group 0. -/
def spanOfGroup (ga : Word) (span : Nat) : Option Nat := if groupOf ga = 0 then some span else none

/-- GLD when every read is answered (08 R199). -/
def gldEnd (d : Reg) (op : GleanOp) (ga : Word) (ms : List Member) (got : List MemberRead) (c : Nat) (x : Ctx) (s : State) : Exec :=
  match gleanFailed got with
  | some (r, k) => .trap s ⟨Code.gleanMember.num, ga, k, 0, false, r⟩
  | none => .ok ((s.setReg x d (gleanValue op ms got 0)).acquire (coreOf c) (s.groupScope c ⟨none, ms⟩))

/-- Whether two ranges of bytes meet. -/
def spansMeet (a n b m : Nat) : Bool := decide (a < b + m) && decide (b < a + n)

/-- Before a glean of a context reads n bytes at an offset of some members, the context's earlier GLDMs, those at the places below `bound`, have read
theirs there: a later glean returns nothing older (08 R201). -/
def State.catchUp (s : State) (c bound off n : Nat) (ms : List Member) : State :=
  { s with gldms := ((List.range s.gldms.length).zip s.gldms).map (fun e =>
      let q := e.2
      let late := (s.unreadHere q.members q.got).filter (fun m => ms.any (fun r => r.cluster == m.cluster))
      if e.1 < bound && q.ctx == c && spansMeet (groupOff q.ga) 64 off n then
        { q with got := q.got ++ late.map (fun m => s.memberRead q.region (spanOfGroup q.ga q.span) (groupOff q.ga) 64 m) }
      else q) }

/-- A reply for a GLD in flight: the answer of the next member of another device, or, when none is awaited, the end; member reads of
this device that no turn has made are made now. -/
def gldReply (d : Reg) (op : GleanOp) (ga : Word) (ms : List Member) (got : List MemberRead) (r : Reply) (c : Nat) (x : Ctx) (s : State) : Exec :=
  let wait := fun (g : List MemberRead) => Exec.hold s (.glean d op ga ms g)
  let finishWith := fun (g : List MemberRead) =>
    let sp := spanOfGroup ga (((s.crew? (clusterOf c)).map (·.1)).getD 0)
    let g' := g ++ (s.unreadHere ms g).map (s.memberRead x.region sp (groupOff ga) 8)
    gldEnd d op ga ms g' c x (s.catchUp c s.gldms.length (groupOff ga) 8 (s.unreadHere ms g))
  match s.unreadAway ms got with
  | [] => finishWith got
  | m :: l =>
    match replyRead m.rank r with
    | none => wait got
    | some g => if l.isEmpty then finishWith (got ++ [g]) else wait (got ++ [g])

/-- GLD (08 R199): the group is resolved, and the member reads follow. A reserved bit of the group address is tested before its offset's alignment.
DEDUCED (entry 68); unsafe. -/
def execGld (d a : Reg) (op : GleanOp) (s : State) : Host.Outcome State Fault Refusal :=
  runSwarm (.gld d a op) (4 :: (if op = .addD then [5] else [])) false [a] (fun c x s =>
    let ga := s.reg x a
    if field ga 63 48 != 0 || field ga 31 23 != 0 then .trap s (flt .bounds ga)
    else if groupOff ga % 8 != 0 then .trap s (flt .align ga)
    else match s.resolve c x ga with
      | .error e => e
      | .ok (s1, g) =>
        .hold (s1.sendEach x (groupOff ga) (.gleanRead 8) (s1.reached (s1.unreadAway g.members [])))
          (.glean d op ga g.members (s1.unroutedReads g.members))) s

/-- GLDM (08 R200). A reserved bit of the group address is tested before its alignment, and both before Ws(b), which is tested before the group is
resolved. A destination that is not aligned is reported as the whole of Ws(b), and a guarded byte by its address in the crew's own aperture.
DEDUCED (entry 68); unsafe. -/
def execGldm (d a b : Reg) (op : GleanOp) (s : State) : Host.Outcome State Fault Refusal :=
  runSwarm (.gldm d a b op) (4 :: (if op = .addD then [5] else [])) false [a, b] (fun c x s =>
    let ga := s.reg x a
    let v := s.reg x b
    let dest := field v 22 0
    let t := field v 61 56
    let k := clusterOf c
    if field ga 63 48 != 0 || field ga 31 23 != 0 then .trap s (flt .bounds ga)
    else if groupOff ga % 64 != 0 then .trap s (flt .align ga)
    else if field v 55 23 != 0 || field v 63 62 != 0 then .trap s (flt .bounds v)
    else if dest % 64 != 0 then .trap s (flt .align v)
    else match s.resolve c x ga with
      | .error e => e
      | .ok (s1, g) =>
        match guardedIn (s1.cluster k) dest 64 with
        | some p => .trap s1 (flt .tileGuard (peerAddr (s1.rankOf c) p) 0 1)
        | none =>
          let tg := s1.tag (coreOf c) t
          if tg.count = 4095 then .busy (s1.setReg x d (word (6 + 256))) .reply
          else
            let q : Gldm := ⟨c, x.region, ((s1.crew? k).map (·.1)).getD 0, op, ga, g.members, s1.unroutedReads g.members, k, dest, t,
              x.level == .supervisor⟩
            let s2 := (s1.setTag (coreOf c) t { tg with count := tg.count + 1 }).sendEach x (groupOff ga) (.gleanRead 64)
              (s1.reached (s1.unreadAway g.members []))
            .busy ({ s2 with gldms := s2.gldms ++ [q] }.setReg x d 0) .reply) s

/-- Answers of other devices given to the members that await them, in rank order. -/
def takeReplies : List Member → List Reply → List MemberRead
  | m :: ms, r :: rs => match replyRead m.rank r with
    | some g => g :: takeReplies ms rs
    | none => takeReplies (m :: ms) rs
  | _, _ => []

/-- GLDM_RESULT (08 R200, R201): every read is answered, and the result or the report lands. A result that the scratchpad refuses is dropped
(entry 23). -/
def execGldmResult (n : Nat) (outside : List Reply) (s : State) : Host.Outcome State Fault Refusal :=
  match s.gldms[n]? with
  | none => .next s
  | some q =>
    let away := s.unreadAway q.members q.got
    let got := q.got ++ takeReplies away outside
    if !(s.unreadAway q.members got).isEmpty then .next { s with gldms := setAt s.gldms n { q with got := got } }
    else
      let all := got ++ (s.unreadHere q.members got).map (s.memberRead q.region (spanOfGroup q.ga q.span) (groupOff q.ga) 64)
      let t := s.catchUp q.ctx n (groupOff q.ga) 64 (s.unreadHere q.members got)
      let s1 := { t with gldms := dropAt t.gldms n }
      match gleanFailed all with
      | some (r, k) => .next (s1.tagReport ⟨none, coreOf q.ctx, q.tag, word Code.gleanMember.num, q.ga, word r, word k⟩)
      | none =>
        let bs := ((List.range 8).map (fun i => leBytes 8 (gleanValue q.op q.members all i).toNat)).flatten
        let open_ := (match s1.crew? q.cluster with | some (n, _) => n == q.span | none => false) &&
          (s1.cluster q.cluster).takes q.sup q.dest 64
        let s2 := if open_ then s1.poke (padAddr q.cluster q.dest) bs else s1
        .next (s2.tagDown (coreOf q.ctx) q.tag)

/-- One member read of a GLD in flight, at its own time (08 R201). -/
def gleanTurn (c rank : Nat) (s : State) : State :=
  match s.ctx? c with
  | some x =>
    match x.st with
    | .glean d op ga ms got =>
      let sp := spanOfGroup ga (((s.crew? (clusterOf c)).map (·.1)).getD 0)
      (match (s.unreadHere ms got).find? (fun m => m.rank == rank) with
       | some m => (s.catchUp c s.gldms.length (groupOff ga) 8 [m]).setCtx c
           { x with st := .glean d op ga ms (got ++ [s.memberRead x.region sp (groupOff ga) 8 m]) }
       | none => s)
    | _ => s
  | none => s

/-- One member read of a GLDM. -/
def gldmTurn (n rank : Nat) (s : State) : State :=
  match s.gldms[n]? with
  | some q =>
    match (s.unreadHere q.members q.got).find? (fun m => m.rank == rank) with
    | some m =>
      let r := s.memberRead q.region (spanOfGroup q.ga q.span) (groupOff q.ga) 64 m
      let t := s.catchUp q.ctx n (groupOff q.ga) 64 [m]
      { t with gldms := setAt t.gldms n { q with got := q.got ++ [r] } }
    | none => s
  | none => s

/-- Why one member write of GST at this device is skipped (08 R202): the code. -/
def State.memberSkip (s : State) (region : Nat) (span : Option Nat) (off n : Nat) (m : Member) : Option Nat :=
  match s.memberFault region span m with
  | some code => some code
  | none =>
    if (s.cluster m.cluster).frozen then some Code.peerFrozen.num
    else if (guardedIn (s.cluster m.cluster) off n).isSome then some Code.tileGuard.num
    else if (badPartial s.bad (padAddr m.cluster off) n).isSome then some Code.eccUncorr.num
    else none

/-- One member write of GST at this device, or its skip (08 R202). -/
def State.memberWrite (s : State) (region : Nat) (span : Option Nat) (off : Nat) (bs : List Byte) (m : Member) : State × Bool :=
  if (s.memberSkip region span off bs.length m).isSome then (s, true) else (s.poke (padAddr m.cluster off) bs, false)

/-- The result of GST (08 R202). -/
def gstWord (skipped : List Nat) : Word :=
  match skipped with
  | [] => 0
  | r :: l => word (10 + 256 * (skipped.length % 65536) + (l.foldl Nat.min r) % 1024 * 2 ^ 32)

/-- The writes of the present members of this device, in rank order. -/
def gstHere (region : Nat) (span : Option Nat) (off : Nat) (bs : List Byte) : List Member → State → State × List Nat
  | [], s => (s, [])
  | m :: l, s =>
    let r := s.memberWrite region span off bs m
    let q := gstHere region span off bs l r.1
    (q.1, if r.2 then m.rank :: q.2 else q.2)

/-- GST (08 R202). A reserved bit of the group address is tested before its offset's alignment. DEDUCED (entry 68); unsafe. -/
def execGst (d a b : Reg) (z : AmoSize) (s : State) : Host.Outcome State Fault Refusal :=
  runSwarm (.gst d a b z) [4] false [a, b] (fun c x s =>
    let ga := s.reg x a
    let n := match z with | .d => 8 | .w => 4
    let bs := lowOf (s.reg x b) n
    if field ga 63 48 != 0 || field ga 31 23 != 0 then .trap s (flt .bounds ga)
    else if groupOff ga % n != 0 then .trap s (flt .align ga 0 1)
    else match s.resolve c x ga with
      | .error e => e
      | .ok (s1, g) => s1.releaseThen c (some (s1.groupScope c g)) (fun s2 =>
          let sp := spanOfGroup ga (((s2.crew? (clusterOf c)).map (·.1)).getD 0)
          let here := g.members.filter (fun m => m.here && m.dev == s2.ctl.devid)
          let away := g.members.filter (fun m => m.here && m.dev != s2.ctl.devid)
          let r := gstHere x.region sp (groupOff ga) bs here s2
          let skipped := r.2 ++ (away.filter (fun m => !s2.routed m.dev)).map (·.rank)
          match s2.reached away with
          | [] => .busy (r.1.setReg x d (gstWord skipped)) .reply
          | ms => .busy (r.1.sendEach x (groupOff ga) (.gleanWrite bs) ms) (.gst d ms skipped))) s
where
  /-- The low n bytes of a value. -/
  lowOf (v : Word) (n : Nat) : List Byte := leBytes n v.toNat

/-- A reply for a GST that writes members of other devices: the answer of the next of them, or its skip. The answer says whether it is
complete. -/
def gstReply (d : Reg) (left : List Member) (skipped : List Nat) (r : Reply) (x : Ctx) (s : State) : State × CtxState × Bool :=
  match left with
  | [] => (s.setReg x d (gstWord skipped), .idle, true)
  | m :: l =>
    let sk := match r with
      | .fault _ _ _ => skipped ++ [m.rank]
      | .here => skipped
      | .data _ => skipped
    if l.isEmpty then (s.setReg x d (gstWord sk), .idle, true) else (s, .gst d l sk, false)

/-- A barrier's phase and arrivals. -/
structure Barrier where
  phase : Word
  arrived : Nat
  deriving DecidableEq, Repr

/-- The step of GARR (08 R203): the barrier after, and whether the phase ended. -/
def Barrier.arrive (b : Barrier) (p : Nat) : Barrier × Bool :=
  if p ≤ b.arrived + 1 then (⟨b.phase + 1, 0⟩, true) else (⟨b.phase, b.arrived + 1⟩, false)

/-- Deferred GWAITs of a group answered, in order of deferral (08 R203, R204). -/
def State.answerGroup (s : State) (desc : Option Nat) (span : Nat) (phase : Word) : State :=
  match desc with
  | some pa =>
    let mine := s.deferrals.filter (s.waitsOn (some pa) span)
    mine.foldl (fun t q => t.answerGwait phase q) { s with deferrals := s.deferrals.filter (fun q => !s.waitsOn (some pa) span q) }
  | none =>
    let mine := s.co.deferred0.filter (s.waitsOn none span)
    let s1 := { s with co := { s.co with deferred0 := s.co.deferred0.filter (fun q => !s.waitsOn none span q) } }
    mine.foldl (fun t q => t.answerGwait phase q) s1

/-- The descriptor's barrier found for a step. -/
def barrierFind (need : Need) (ga : Word) (pa : Nat) (c : Nat) (x : Ctx) (s : State) (k : State → Exec) : Exec :=
  let va := (x.gtb &&& ~~~(63 : Word)) + word (64 * groupOf ga)
  match s.checkPart (s.whoOf c x) need hbmOnly va 64 with
  | (s1, .fault f) => .trap s1 f
  | (s1, .held) => again s1
  | (s1, .ok _) =>
    match s1.reach (coreOf c) (some (.ctx c)) need.w pa 64 with
    | (s2, true) => k (s2.forget (coreOf c) pa 64)
    | (s2, false) => again s2

/-- GARR's result word (08 R203). -/
def garrWord (phase : Word) : Word := word (field phase 55 0 * 256)

/-- GARR (08 R203). Its barrier step asks for both rights of the descriptor's page. DEDUCED (entry 77); unsafe. -/
def execGarr (d a : Reg) (s : State) : Host.Outcome State Fault Refusal :=
  runSwarm (.garr d a) [4] false [a] (fun c x s =>
    let ga := s.reg x a
    if groupOff ga != 0 then .trap s (flt .bounds ga)
    else match s.resolve c x ga with
      | .error e => e
      | .ok (s1, g) =>
        let p := (g.members.filter (·.here)).length
        if !g.members.any (fun m => m.here && m.dev == s1.ctl.devid && m.cluster == clusterOf c) then .trap s1 (flt .bounds ga)
        else s1.releaseThen c (some (s1.groupScope c g)) (fun s2 =>
          let sp := ((s2.crew? (clusterOf c)).map (·.1)).getD 0
          match g.desc with
          | none =>
            (match s2.span? sp with
             | none => .busy (s2.setReg x d 0) .reply
             | some q =>
               let r := (Barrier.mk q.phase q.arrived).arrive p
               let s3 := (s2.setSpan { q with phase := r.1.phase, arrived := r.1.arrived }).setReg x d (garrWord q.phase)
               .busy (if r.2 then s3.answerGroup none sp r.1.phase else s3) .reply)
          | some pa => barrierFind Need.step ga pa c x s2 (fun s3 =>
              let l := localOf pa
              let ph := s3.peek64 (l + 24)
              let r := (Barrier.mk ph (field (s3.peek64 (l + 32)) 10 0)).arrive p
              let s4 := ((s3.poke64 (l + 24) r.1.phase).poke64 (l + 32) (word r.1.arrived)).setReg x d (garrWord ph)
              .busy (if r.2 then s4.answerGroup (some pa) sp r.1.phase else s4) .reply))) s

/-- GWAIT (08 R204). -/
def execGwait (d a b : Reg) (s : State) : Host.Outcome State Fault Refusal :=
  runSwarm (.gwait d a b) [4] false [a, b] (fun c x s =>
    let ga := s.reg x a
    let token := field (s.reg x b) 63 8
    let die := dieOfCluster (clusterOf c)
    if groupOff ga != 0 then .trap s (flt .bounds ga)
    else match s.resolve c x ga with
      | .error e => e
      | .ok (s1, g) =>
        let sp := ((s1.crew? (clusterOf c)).map (·.1)).getD 0
        let step := fun (t : State) (phase : Word) (room : Bool) (defer : State → State) =>
          if field phase 55 0 != token then
            Exec.busy ((t.setReg x d (garrWord phase)).acquire (coreOf c) (t.groupScope c g)) .reply
          else if room then
            .busy ((defer t).count (.die die x.region) 4 1) (.waiting (.phase d g.desc sp token))
          else .busy ((t.setReg x d 7).count (.die die x.region) 5 1) .reply
        match g.desc with
        | none =>
          (match s1.span? sp with
           | none => .busy (s1.setReg x d 7) .reply
           | some q => step s1 q.phase (s1.co.deferred0.length < 256)
               (fun t => t.defer0 c))
        | some pa => barrierFind Need.load ga pa c x s1 (fun s2 =>
            step s2 (s2.peek64 (localOf pa + 24)) (s2.deferRoom pa) (fun t => t.defer c pa))) s

end Sys2Proof.Machine
end

