-- ==== Sys2Proof/Machine/Regs.lean ====
section
/-! DEFINITION. The control block, CLCTL, TLBINV, the queue window, counters, mailboxes and link registers (13 R307, R314; 14 R339 to R342;
15 R344 to R361): what a load of each returns and what a store to each does. -/
namespace Sys2Proof.Machine

/-- Where a control register lies (13 R307, R314; 14 R339; 15 R346 to R361); `off` are offsets within a block. -/
inductive RegAt where
  | stage | devsem | devid | stepping | featOffer | featReq | featGrant | regcmd | regimg | regres | irqstat | irqmask
  | tlbinv
  | logRec (n dw : Nat) | logHead | logTail | logLost
  | mbox (p : Port) (off : Nat)
  | telemetry (off : Nat)
  | throttle | powercap
  | window (slot off : Nat)
  | fabric (off : Nat)
  | route (dev : Nat)
  | clctl (k : Nat)
  | clusterCtr (k n : Nat) (hi : Bool)
  | dieCtr (d n : Nat) (hi : Bool)
  | rsv
  deriving DecidableEq, Repr

/-- The register of an offset in the control block. -/
def controlReg (o : Nat) : RegAt :=
  match o with
  | 0x000 => .stage | 0x008 => .devsem | 0x010 => .devid | 0x018 => .stepping | 0x020 => .featOffer | 0x028 => .featReq
  | 0x030 => .featGrant | 0x040 => .regcmd | 0x048 => .regimg | 0x050 => .regres | 0x058 => .irqstat | 0x060 => .irqmask
  | 0x200 => .tlbinv
  | _ => .rsv

/-- The register at an 8-byte aligned local address. -/
def regAt (a : Nat) : RegAt :=
  let o := a - Config.mmioBase
  if o < 0x1000 then controlReg o
  else if o < 0x1800 then .logRec ((o - 0x1000) / 32) ((o - 0x1000) % 32 / 8)
  else if o = 0x1800 then .logHead
  else if o = 0x1808 then .logTail
  else if o = 0x1810 then .logLost
  else if 0x2000 ≤ o && o < 0x3000 then .mbox .a (o - 0x2000)
  else if 0x3000 ≤ o && o < 0x4000 then .mbox .b (o - 0x3000)
  else if 0x4000 ≤ o && o < 0x40E0 then .telemetry (o - 0x4000)
  else if o = 0x4100 then .throttle
  else if o = 0x4108 then .powercap
  else if 0x20000000 ≤ o && o < 0x20100000 then .window ((o - 0x20000000) / 256) (o % 256)
  else if 0x30000000 ≤ o && o < 0x30000018 then .fabric (o - 0x30000000)
  else if 0x30001000 ≤ o && o < 0x30003000 then .route ((o - 0x30001000) / 8)
  else if 0x40000000 ≤ o && o < 0x40100000 then
    let k := (o - 0x40000000) / 4096
    let i := o % 4096
    if i = 0 then .clctl k
    else if 0x100 ≤ i && i < 0x180 then .clusterCtr k ((i - 0x100) / 16) (i % 16 == 8)
    else .rsv
  else if 0x50000000 ≤ o && o < 0x50004000 then
    let i := o % 4096
    if i < 0x100 then .dieCtr ((o - 0x50000000) / 4096) (i / 16) (i % 16 == 8) else .rsv
  else .rsv

/-- The first stage at which a register answers (15 R344, R345). -/
def RegAt.stage1 : RegAt → Nat
  | .tlbinv | .window _ _ | .clctl _ | .clusterCtr _ _ _ | .dieCtr _ _ _ | .fabric _ => 3
  | .devid | .featReq | .powercap | .route _ => 2
  | .stage | .devsem | .stepping | .featOffer | .featGrant | .regcmd | .regimg | .regres | .irqstat | .irqmask | .logRec _ _
  | .logHead | .logTail | .logLost | .mbox _ _ | .telemetry _ | .throttle | .rsv => 1

/-- The registers that only the semaphore's owner writes, and that answer from stage 2 on (15 R344, R348). -/
def RegAt.owned : RegAt → Bool
  | .devid | .featReq | .powercap | .route _ => true
  | .stage | .devsem | .stepping | .featOffer | .featGrant | .regcmd | .regimg | .regres | .irqstat | .irqmask | .tlbinv | .logRec _ _
  | .logHead | .logTail | .logLost | .mbox _ _ | .telemetry _ | .throttle | .window _ _ | .fabric _ | .clctl _ | .clusterCtr _ _ _
  | .dieCtr _ _ _ | .rsv => false

/-- A counter's control word (15 R359). -/
def Counter.low (c : Counter) : Word :=
  word (c.src.toNat + (if c.en then 2 ^ 8 else 0) + (if c.rfilt then 2 ^ 9 else 0) + (if c.ovf then 2 ^ 10 else 0) +
    (if c.ovfirq then 2 ^ 11 else 0) + c.region.toNat * 2 ^ 32)

/-- A store to a counter (15 R359): OVF is cleared by writing 1. -/
def Counter.write (c : Counter) (hi : Bool) (v : Word) : Counter :=
  if hi then { c with cnt := v.setWidth 48 }
  else { c with src := v.setWidth 8, en := v.getLsbD 8, rfilt := v.getLsbD 9, ovf := c.ovf && !v.getLsbD 10,
                ovfirq := v.getLsbD 11, region := v.extractLsb' 32 32 }

/-- A device error record's doubleword (15 R353). -/
def DevRecord.dword (r : DevRecord) (i : Nat) : Word :=
  match i with
  | 0 => word (r.cause + 256 * r.source)
  | 1 => r.addr
  | 2 => word r.region
  | _ => r.cycle

/-- A mailbox (15 R356). -/
def Control.box (t : Control) (p : Port) : Mailbox := match p with | .a => t.boxA | .b => t.boxB
/-- It written. -/
def Control.setBox (t : Control) (p : Port) (m : Mailbox) : Control :=
  match p with
  | .a => { t with boxA := m }
  | .b => { t with boxB := m }

/-- Bytes i to i + n - 1 of a mailbox's DATA. -/
def Mailbox.bytes (m : Mailbox) (i n : Nat) : List Byte := (List.range n).map (fun j => m.data.getD (i + j) 0)
/-- Bytes put into DATA from byte i; DATA has 3,840 bytes. -/
def Mailbox.putBytes (m : Mailbox) : Nat → List Byte → Mailbox
  | _, [] => m
  | i, b :: l => if i < 3840 then { m with data := m.data.put i b 0 }.putBytes (i + 1) l else m

/-- CLCTL status (13 R314). An MX that a crew does not enable is halted from placement on (01 R21, R28). -/
def Cluster.status (cl : Cluster) : Word :=
  let bit := fun (b : Bool) (n : Nat) => if b then 2 ^ n else 0
  let halted := fun (m : Mx) => m.st == .halted || (m.st == .off && cl.owner != .free)
  word (bit cl.frozen 0 + bit (cl.mx0.st == .faulted) 1 + bit (cl.mx1.st == .faulted) 2 + bit (halted cl.mx0) 3 +
    bit (halted cl.mx1) 4 + bit cl.fenced 5)

/-- The bank of a storer (15 R346): IRQMASK. -/
def Control.irqmask (t : Control) (st : Storer) : BitVec 6 :=
  match st with
  | .port .a => t.irqA
  | .port .b => t.irqB
  | .service => t.irqS
  | .context _ => 0

/-- The bank of a storer: REGIMG. -/
def Control.regimg (t : Control) (st : Storer) : Word :=
  match st with
  | .port .a => t.imgA
  | .port .b => t.imgB
  | .service => t.imgS
  | .context _ => 0

/-- What a load of a control register returns (13 R314; 14 R340, R342; 15 R345, R346, R353 to R361). -/
def State.regRead (s : State) (st : Storer) (a : Nat) : Word :=
  let t := s.ctl
  let r := regAt a
  if t.stage < r.stage1 then 0
  else match r with
  | .stage => word (t.stage + (if t.trained then 4 else 0) + (if t.fwerr then 8 else 0))
  | .devsem => word t.owner
  | .devid => word t.devid
  | .stepping => t.stepping.setWidth 64
  | .featOffer => t.featOffer
  | .featReq => t.featReq
  | .featGrant => t.featGrant
  | .regcmd => 0
  | .regimg => t.regimg st
  | .regres => word (t.result + t.seq.toNat * 2 ^ 16 + (t.regcmd.length + s.co.preempts.length) * 2 ^ 32)
  | .irqstat => t.irqstat.setWidth 64
  | .irqmask => (t.irqmask st).setWidth 64
  | .tlbinv => 0
  | .logRec n i => match t.log.find? n with | some d => d.dword i | none => 0
  | .logHead => t.logHead
  | .logTail => t.logTail
  | .logLost => word t.lost
  | .mbox p o =>
    let m := t.box p
    if o = 8 then word (m.mstat.toNat + m.mseq.toNat * 2 ^ 16 + m.rlen.toNat * 2 ^ 32)
    else if 0x100 ≤ o then word (leNat (m.bytes (o - 0x100) 8)) else 0
  | .telemetry o =>
    let m := t.telemetry
    if o = 0 then word m.power
    else if o < 0x30 then word (m.diePower.getD (o / 8 - 1) 0)
    else if 0x40 ≤ o && o < 0x68 then word (m.junction.getD ((o - 0x40) / 8) 0)
    else if 0x80 ≤ o then word (m.stackTemp.getD ((o - 0x80) / 8) 0) else 0
  | .throttle => t.throttle.setWidth 64
  | .powercap => t.powercap.setWidth 64
  | .window n o =>
    let w := s.io.windows.getD n Window.zero
    if o = 0 then w.qhandle
    else if o = 0x10 then word (w.code.toNat + w.seq.toNat * 2 ^ 32)
    else if o = 0x18 then w.region.setWidth 64
    else if 0x40 ≤ o && o < 0x80 then w.entry.getD ((o - 0x40) / 8) 0 else 0
  | .fabric o =>
    let f := s.io.fabric
    if o = 0 then word (f.count + f.source * 2 ^ 16 + f.cause * 2 ^ 20 + f.device * 2 ^ 24 + (if f.valid then 2 ^ 34 else 0))
    else if o = 8 then word f.addr else 0
  | .route d => (s.io.routes.getD d 0).setWidth 64
  | .clctl k => (s.cluster k).status
  | .clusterCtr k n hi =>
    let c := (s.cluster k).counters.getD n Counter.zero
    if hi then c.cnt.setWidth 64 else c.low
  | .dieCtr d n hi =>
    let c := t.counters.getD (16 * d + n) Counter.zero
    if hi then c.cnt.setWidth 64 else c.low
  | .rsv => 0

/-- Source codes of the logs (14 R342, 15 R353). -/
def Storer.source (st : Storer) : Nat :=
  match st with
  | .port .a => 0
  | .port .b => 1
  | .service => 5
  | .context _ => 4

/-- SOURCE of a storer's dropped write in the fabric error log (14 R342). DESIGN CHOICE (entry 67); safe. -/
def Storer.dropSource (st : Storer) : Nat :=
  match st with
  | .service => Config.serviceSource.val
  | .port _ | .context _ => Storer.source st

/-- Whether a storer owns DEVSEM (15 R347). -/
def State.owns (s : State) (st : Storer) : Bool :=
  match st with
  | .port .a => s.ctl.owner == 1
  | .port .b => s.ctl.owner == 2
  | .service => s.ctl.owner == 3
  | .context _ => false

/-- The context of a storer, if it is one that is bound. -/
def State.storerCtx (s : State) (st : Storer) : Option Ctx :=
  match st with
  | .context c => s.ctx? c
  | _ => none

/-- Whether a storer is a device context. -/
def isContext (st : Storer) : Bool :=
  match st with
  | .context _ => true
  | _ => false

/-- Whether a store to a cluster's control is accepted (13 R314, 15 R359): a supervisor context of the region whose crew holds the
cluster, the host, or the service core. -/
def State.clusterRight (s : State) (st : Storer) (k : Nat) : Bool :=
  !isContext st || match s.storerCtx st with
    | some x => x.level == .supervisor && s.crewRegion? k == some x.region
    | none => false

/-- A control register's fault for a device context: PRIV at the address stored to, BOUNDS with the value (13 R308). -/
def regFault (c : Code) (va v : Word) : Res Unit := .fault (flt c (if c = .bounds then v else va) 0 1)

/-- A store refused: a fault for a device context; dropped and logged with cause 2 for others (13 R307, 15 R353). -/
def State.refuseStore (s : State) (st : Storer) (c : Code) (a : Nat) (va v : Word) : State × Res Unit :=
  if isContext st then (s, regFault c va v) else (s.logDevice 2 (Storer.source st) (word (s.phys a)) 0, .ok ())

/-- A store kept for the semaphore's owner (15 R348). -/
def State.ownedStore (s : State) (st : Storer) (a : Nat) (f : State → State) : State × Res Unit :=
  if s.owns st then (f s, .ok ()) else (s.logDevice 1 (Storer.source st) (word (s.phys a)) 0, .ok ())

/-- OWNER's code of a storer, which is its place in the order of the stores of one s-cycle (15 R346, R347). -/
def semPlace (st : Storer) : Nat :=
  match st with
  | .port .a => 1
  | .port .b => 2
  | .service | .context _ => 3

/-- Whether a store to DEVSEM comes after one of this s-cycle that it must precede: it arrives in the next s-cycle then (15 R347). -/
def State.semLate (s : State) (st : Storer) : Bool :=
  match s.ctl.semStore with
  | some (t, p) => t == s.now && semPlace st < p
  | none => false

/-- DEVSEM (15 R347). -/
def State.semStore (s : State) (st : Storer) (va v : Word) : State × Res Unit :=
  if isContext st then (s, regFault .priv va v)
  else
    let acq := v.getLsbD 8
    let rel := v.getLsbD 9
    let t := { s.ctl with semStore := some (s.now, semPlace st) }
    if acq && !rel && s.ctl.owner = 0 then ({ s with ctl := { t with owner := semPlace st } }, .ok ())
    else if rel && !acq && s.owns st then ({ s with ctl := { t with owner := 0 } }, .ok ())
    else ({ s with ctl := t }, .ok ())

/-- STAGE (15 R344, R346): the owner's store of 3 moves a trained device to stage 3 and fixes FEATGRANT. No region has been chosen there yet
(12 R282). -/
def State.stageStore (s : State) (st : Storer) (a : Nat) (v : Word) : State × Res Unit :=
  s.ownedStore st a (fun t =>
    if field v 1 0 = 3 && t.ctl.stage = 2 && t.ctl.trained then
      { t with ctl := { t.ctl with stage := 3, featGrant := (t.ctl.featReq &&& t.ctl.featOffer) ||| 1 },
               co := { t.co with chosen := [] } }
    else t)

/-- A region command completes (15 R351). -/
def State.cmdDone (s : State) (result : Nat) : State :=
  { s with ctl := Control.raise { s.ctl with result := result, seq := s.ctl.seq + 1 } 4 }

/-- Whether the RCB at an address has another among its ancestors (15 R351): PARENT of each RCB is read at its home slice (11 R275). -/
def State.descends (s : State) (me : Option Waiter) (top : Nat) : Nat → Nat → State × Res Bool
  | 0, _ => (s, .ok false)
  | n + 1, rcb =>
    match s.readLine me (rcb / 64) with
    | (s1, false) => (s1, .held)
    | (s1, true) =>
      let p := s1.peek (rcb + 8) 8
      if p = 0 || s1.place p != .hbm then (s1, .ok false)
      else if localOf p = top then (s1, .ok true)
      else s1.descends me top n (localOf p)

/-- The place that a storer's store takes where it waits. -/
def Storer.waiter (st : Storer) : Option Waiter :=
  match st with
  | .context c => some (.ctx c)
  | .port _ | .service => none

/-- REGCMD (15 R345, R348, R351). -/
def State.cmdStore (s : State) (st : Storer) (a : Nat) (va v : Word) : State × Res Unit :=
  let cmd := field v 3 0
  let rcb := field v 51 8 * 256
  let put := fun (t : State) =>
    if t.ctl.stage < 3 then t.cmdDone 4
    else if 16 ≤ t.ctl.regcmd.length + t.co.preempts.length then t.cmdDone 5
    else { t with ctl := { t.ctl with regcmd := t.ctl.regcmd ++
      [⟨cmd, rcb, field v 7 4 != 0 || field v 63 52 != 0, (t.ctl.regimg st).toNat⟩] } }
  match s.storerCtx st with
  | some x =>
    let mine := ((s.region? x.region).map (·.rcb)).getD 0
    if x.level = .supervisor && (cmd = 1 || cmd = 4 || cmd = 5) && s.place rcb == .hbm then
      match s.descends (Storer.waiter st) mine 8 (localOf rcb) with
      | (s1, .ok true) => (put s1, .ok ())
      | (s1, .ok false) => (s1, regFault .priv va v)
      | (s1, .fault f) => (s1, .fault f)
      | (s1, .held) => (s1, .held)
    else (s, regFault .priv va v)
  | none => if isContext st then (s, regFault .priv va v) else s.ownedStore st a put

/-- The wanted entries of every store path perform, if they can. -/
def State.drainAll (s : State) (want : PathEntry → Bool) : State × Bool :=
  s.cores.foldl (fun acc e => let r := acc.1.drain e.1 want; (r.1, acc.2 && r.2)) (s, true)

/-- TLB entries that an invalidation keeps. -/
def keepTlb (kind : Nat) (asid : BitVec 16) (vpg : Nat) (e : TlbEntry) : Bool :=
  match kind with
  | 0 => !(e.asid == asid && (vpg * 2 ^ 16) / 2 ^ e.size == e.page)
  | 1 => !(e.asid == asid)
  | _ => false

/-- Every TLB of the package filtered. -/
def State.filterTlbs (s : State) (keep : TlbEntry → Bool) : State :=
  { s with cores := s.cores.map (fun e => (e.1, { e.2 with tlb := e.2.tlb.filter keep })),
           clusters := s.clusters.map (fun e => (e.1, { e.2 with tlb := e.2.tlb.filter keep })),
           engines := s.engines.map (fun e => (e.1, { e.2 with tlb := e.2.tlb.filter keep })) }

/-- Whether an access under way keeps a physical address that a translation gave it: one that another device or the host has not answered,
the second step of a tile write, a copy's read or write, a GLDM's, a WDQ's answer, or a ring entry's. A SEAL that is queued at a shelf and a
deferred LDF have reached their point: they are none. DEDUCED (entry 82); unsafe. -/
def State.translated (s : State) (me : Option Waiter) : Bool :=
  s.ctxs.any (fun e => some (Waiter.ctx e.1) != me && match e.2.st with
    | .remote _ | .row _ => true
    | .idle | .reply | .retry | .fetching | .glean _ _ _ _ _ | .gst _ _ _ | .yielding _ | .waiting _ => false) ||
  s.engines.any (fun e => !e.2.posted.isEmpty || e.2.queue.any (fun q => q.asked.isSome)) || !s.gldms.isEmpty || !s.co.queries.isEmpty ||
  s.io.rings.any (fun r => r.answer.isNone)

/-- Where TLBINV's stores wait for one another (13 R307). -/
def tlbinvLine : Nat := (Config.mmioBase + 0x200) / 64

/-- An invalidation performed (13 R307), or held until every access under way that may use a removed entry has performed, and until the
invalidations before it are complete. -/
def State.invalidate (s : State) (me : Option Waiter) (kind : Nat) (asid : BitVec 16) (vpg : Nat) : State × Res Unit :=
  if s.heldAt me tlbinvLine then (s.waitAt me tlbinvLine, .held)
  else
    let r := s.drainAll (fun _ => true)
    if r.2 && !r.1.translated me then (r.1.filterTlbs (keepTlb kind asid vpg), .ok ()) else (r.1.waitAt me tlbinvLine, .held)

/-- TLBINV (13 R307). A context's KIND 3 is BOUNDS whatever ASID it names, and a must-be-zero bit beside another ASID is PRIV.
DESIGN CHOICE (entry 74); unsafe. -/
def State.tlbStore (s : State) (st : Storer) (a : Nat) (va v : Word) : State × Res Unit :=
  let kind := field v 57 56
  let asid := v.extractLsb' 40 16
  let priv := isContext st && match s.storerCtx st with
    | some x => x.level == .user || kind == 2 || (kind != 3 && asid != s.effOf x.region 5 (·.asid) 0)
    | none => true
  if priv then (s, regFault .priv va v)
  else if kind = 3 || field v 63 58 != 0 then s.refuseStore st .bounds a va v
  else s.invalidate (Storer.waiter st) kind asid (field v 39 0)

/-- An MX that MXHALT stops halts once its busy bits are clear (13 R314). -/
def State.haltIfStopping (s : State) (k : Nat) (u : MxUnit) : State :=
  let m := s.mx k u
  if m.stopping && m.flight.isEmpty then s.haltMx k u true else s

/-- MXHALT (13 R314). -/
def State.mxHalt (s : State) (k : Nat) (u : MxUnit) : State :=
  let m := s.mx k u
  if m.st = .run || m.st = .faulted then (s.setMx k u { m with stopping := true }).haltIfStopping k u else s

/-- MXRESUME (13 R314). -/
def State.mxResume (s : State) (k : Nat) (u : MxUnit) : State :=
  let m := s.mx k u
  if m.st = .faulted then s.setMx k u { m with st := .run } else s

/-- RELEASE (13 R314, R315). -/
def State.releaseIfFrozen (s : State) (k : Nat) : State := if (s.cluster k).frozen then s.releaseCrew k else s

/-- FREEZE of a cluster that a crew holds. -/
def State.freezeIfHeld (s : State) (k : Nat) : State := if (s.crew? k).isSome then s.freezeCrew k else s

/-- CLCTL (13 R314). -/
def State.clusterStore (s : State) (st : Storer) (k a : Nat) (va v : Word) : State × Res Unit :=
  if !s.clusterRight st k then (s, regFault .priv va v)
  else if 5 < field v 3 0 || field v 63 5 != 0 then s.refuseStore st .bounds a va v
  else
    let u := if v.getLsbD 4 then MxUnit.mx1 else MxUnit.mx0
    match field v 3 0 with
    | 1 => (s.mxResume k u, .ok ())
    | 2 => (s.mxHalt k u, .ok ())
    | 3 => (s.freezeIfHeld k, .ok ())
    | 4 => (s.thawCrew k, .ok ())
    | 5 => (s.releaseIfFrozen k, .ok ())
    | _ => (s, .ok ())

/-- A slot of the queue window after a step (14 R341). -/
def State.windowDone (s : State) (slot code : Nat) : State :=
  let w := s.io.windows.getD slot Window.zero
  { s with io := { s.io with windows := s.io.windows.insert slot { w with code := BitVec.ofNat 8 code, seq := w.seq + 1 } } }

/-- A doorbell refused (14 R341, R342): CODE 11, and a record. -/
def State.windowRefuse (s : State) (st : Storer) (slot a : Nat) : State :=
  (s.logFabric (Storer.dropSource st) 6 0 (s.phys a)).windowDone slot 11

/-- Whether a request at a home slice is a write of a port through CXL.mem, which a doorbell of that port releases (14 R341). -/
def Waiter.memWrite (p : Port) (w : Waiter) : Bool :=
  match w with
  | .row (.cxlMemWrite q _ _ _) => q == p
  | .row _ | .ctx _ | .path _ | .engine | .writes | .storer _ => false

/-- The writes of a storer made before a doorbell, apart from those of its own path, that have not performed (14 R341). -/
def State.unperformed (s : State) (st : Storer) : List (Waiter × Nat) :=
  match st with
  | .port p => s.waits.filter (fun w => Waiter.memWrite p w.1)
  | .service | .context _ => []

/-- The doorbell that a storer has rung and whose step is under way; with none, the one that its store rings now, with the step's snapshot
(14 R341). -/
def State.bellOf (s : State) (st : Storer) (slot : Nat) (v : Word) : State × Bell :=
  match s.io.bells.find? (fun b => b.who == st) with
  | some b => (s, b)
  | none =>
    let w := s.io.windows.getD slot Window.zero
    let b : Bell := ⟨st, slot, v, w.qhandle, w.region, w.entry, s.unperformed st⟩
    ({ s with io := { s.io with bells := s.io.bells ++ [b] } }, b)

/-- The step of a doorbell is over. -/
def State.bellDone (s : State) (st : Storer) : State := { s with io := { s.io with bells := s.io.bells.filter (fun b => b.who != st) } }

/-- Whether a doorbell's step may be made now: the steps of its slot that came before it are over, and its release has what it waits for. -/
def State.bellReady (s : State) (b : Bell) : Bool :=
  (s.io.bells.takeWhile (fun q => q.who != b.who)).all (fun q => q.slot != b.slot) && b.after.all (fun w => !s.waits.contains w)

/-- Who makes the ENQ of a doorbell (14 R341): the storing context; for the host and the service core the region that REGION names, at supervisor
level. DESIGN CHOICE (entry 78); unsafe. -/
def State.bellWho (s : State) (b : Bell) : Who :=
  match b.who, s.storerCtx b.who with
  | .context c, some x => s.whoOf c x
  | _, _ => regionWho s b.region.toNat none

/-- The release of a doorbell at SYS (14 R341). -/
def State.bellRelease (s : State) (b : Bell) : State × Bool :=
  match b.who with
  | .context c => s.release c (some .sys)
  | .port _ | .service => (s, true)

/-- The ENQ of a doorbell's step (14 R341). A fault of the handle's address gives CODE 11 and a record, whoever stored, and so does a handle that is
not aligned. A fault of the ring is the storing context's, as ENQ's is; from the host it is CODE 11 and a record.
DESIGN CHOICE (entry 78); unsafe. -/
def State.bellEnq (s : State) (b : Bell) (a : Nat) (va : Word) : State × Res Unit :=
  let ctx := isContext b.who
  let n := 8 * 2 ^ field b.v 1 0
  match s.qFind (s.bellWho b) true b.qhandle with
  | (s1, .held) => (s1, .held)
  | (s1, .fault _) => (s1.windowRefuse b.who b.slot a, .ok ())
  | (s1, .ok _) =>
    match s1.enq (s1.bellWho b) b.qhandle n (((b.entry.map (fun d => leBytes 8 d.toNat)).flatten).take n) with
    | (s2, .ok q) => (s2.windowDone b.slot (q.value % 256), .ok ())
    | (s2, .held) => (s2, .held)
    | (s2, .fault f) =>
      if f.code = Code.bounds.num then (if ctx then (s2, regFault .bounds va b.v) else (s2.windowDone b.slot 11, .ok ()))
      else if ctx then (s2, .fault f)
      else (s2.windowRefuse b.who b.slot a, .ok ())

/-- The step of a doorbell (14 R341). -/
def State.bellStep (s : State) (b : Bell) (a : Nat) (va : Word) : State × Res Unit :=
  let ctx := isContext b.who
  if !s.bellReady b then (s, .held)
  else if field b.v 63 2 != 0 then
    (if ctx then (s, regFault .bounds va b.v)
     else ((s.logDevice 2 (Storer.source b.who) (word (s.phys a)) 0).windowDone b.slot 11, .ok ()))
  else if !ctx && ((s.region? b.region.toNat).map (·.state)) != some .active then (s.windowRefuse b.who b.slot a, .ok ())
  else match s.bellRelease b with
    | (s1, false) => (s1, .held)
    | (s1, true) => s1.bellEnq b a va

/-- A doorbell of the queue window (14 R341): its step is made with what it found at its arrival. -/
def State.doorbell (s : State) (st : Storer) (slot a : Nat) (va v : Word) : State × Res Unit :=
  let r := s.bellOf st slot v
  match r.1.bellStep r.2 a va with
  | (s1, .held) => (s1, .held)
  | (s1, .ok u) => (s1.bellDone st, .ok u)
  | (s1, .fault f) => (s1.bellDone st, .fault f)

/-- CLR of the fabric error log (14 R342): bit 0 clears, whatever the must-be-zero bits hold. DESIGN CHOICE (entry 75); unsafe. -/
def State.fabricClear (s : State) (v : Word) : State :=
  if v.getLsbD 0 then { s with io := { s.io with fabric := { s.io.fabric with count := 0, valid := false, addr := 0 } } } else s

/-- Number of a port, and of the source of its records. -/
def portNum (p : Port) : Nat := match p with | .a => 0 | .b => 1

/-- A mailbox command completes with a reply (15 R356). -/
def State.boxDone (s : State) (p : Port) (stat : Nat) (reply : List Byte) : State :=
  let m := s.ctl.box p
  let m1 := { m with mstat := BitVec.ofNat 8 stat, mseq := m.mseq + 1, rlen := BitVec.ofNat 16 reply.length }
  { s with ctl := s.ctl.setBox p (m1.putBytes 0 reply) }

/-- Opaque bytes of a reply. -/
def secretBytes (cmd first n : Nat) (of_ : List Byte) : List Byte :=
  (List.range n).map (fun i => Config.identityBytes cmd (first + i) of_)

/-- ORDER (15 R356). -/
def orderByte : Byte := if Config.orderM then 1 else 0

/-- IDENTITY (15 R356): ORDER, STEPPING, serial (8 bytes, entry 6), public key. DESIGN CHOICE (entry 27); safe. -/
def State.boxIdentity (s : State) (p : Port) : State :=
  s.boxDone p 0 ([orderByte] ++ leBytes 4 s.ctl.stepping.toNat ++ secretBytes 1 1 141 [])

/-- CERTS (15 R356): the request names the piece. DESIGN CHOICE (entry 27); safe. -/
def State.boxCerts (s : State) (p : Port) (mlen : Nat) : State :=
  let n := leNat ((s.ctl.box p).bytes 0 (Nat.min mlen 3840))
  s.boxDone p 0 (secretBytes 2 (n * 3840) (Config.certLength n % 3841) [])

/-- SHA-512 of the running service firmware (15 R357): of the image that a commit has made to run, or a free value for the firmware that the
part was made with. -/
def Control.firmwareDigest (t : Control) : List Byte :=
  match t.running with
  | some image => sha512 image
  | none => secretBytes 3 64 64 []

/-- ATTEST (15 R357). DESIGN CHOICE (entry 27); safe. -/
def State.boxAttest (s : State) (p : Port) : State :=
  let t := s.ctl
  let body := (t.box p).bytes 0 64 ++ secretBytes 3 0 64 [] ++ t.firmwareDigest ++
    leBytes 4 t.stepping.toNat ++ [orderByte] ++ leBytes 1 t.stage ++ leBytes 2 t.devid ++ leBytes 8 t.featGrant.toNat ++
    leBytes 8 t.boots
  s.boxDone p 0 (body ++ secretBytes 3 216 132 body)

/-- MCMD of a port's mailbox (15 R356). -/
def mailboxAddr (p : Port) : Nat := Config.mmioBase + 0x2000 + 0x1000 * portNum p

/-- A firmware command of a storer without the semaphore (15 R348, R353, R356). -/
def State.boxNoSem (s : State) (p : BoxStore) : State :=
  (s.boxDone p.box 4 []).logDevice 1 (Storer.source p.who) (word (s.phys (mailboxAddr p.box))) 0

/-- FWSTAGE (15 R356). -/
def State.boxFwstage (s : State) (p : BoxStore) (mlen : Nat) : State :=
  let new := (s.ctl.box p.box).bytes 0 (Nat.min mlen 3840)
  State.boxDone { s with ctl := { s.ctl with staging := s.ctl.staging ++ new } } p.box 0 []

/-- FWCOMMIT (15 R358): the outcome of the signature's verification, and the rollback number that the image carries. -/
def State.boxFwcommit (s : State) (p : BoxStore) (good : ImageCheck) : State :=
  if good.signed && s.ctl.rollback ≤ good.rollback then
    State.boxDone { s with ctl := { s.ctl with committed := some s.ctl.staging } } p.box 0 []
  else (State.boxDone { s with ctl := { s.ctl with staging := [] } } p.box 3 []).logDevice 4 (Storer.source p.who)
    (word (s.phys (mailboxAddr p.box))) 0

/-- A store to MCMD (15 R356): the command waits to be performed; a firmware command takes the semaphore at the store (15 R348); BUSY answers one
that finds another unfinished, and BADCMD one that is no command. -/
def State.boxCommand (s : State) (p : Port) (st : Storer) (v : Word) : State :=
  let m := s.ctl.box p
  let cmd := field v 7 0
  if (cmd = 4 || cmd = 5) && !s.owns st then s.boxNoSem ⟨p, st⟩
  else if m.pending.isSome then s.boxDone p 1 []
  else if cmd = 0 || 5 < cmd then s.boxDone p 2 []
  else { s with ctl := s.ctl.setBox p { m with pending := some (cmd, field v 31 16, st) } }

/-- A mailbox with no command unfinished. -/
def State.boxTaken (s : State) (p : Port) : State := { s with ctl := s.ctl.setBox p { s.ctl.box p with pending := none } }

/-- A mailbox command of the table (15 R356): the command that waits at the mailbox is performed; with none there, its doorbell rings and it
is performed at once; and with another one there, the doorbell is answered BUSY. `st` is the storer of a firmware command, which needs the
semaphore at its doorbell (15 R348). From stage 1 on. DESIGN CHOICE (entry 54); safe. -/
def State.boxRun (s : State) (p : Port) (cmd mlen : Nat) (st : Option Storer) (act : State → State) : State :=
  if s.ctl.stage = 0 then s
  else
    let rings := fun (r : State) => match st with
      | some w => if s.owns w then r else s.boxNoSem ⟨p, w⟩
      | none => r
    match (s.ctl.box p).pending with
    | none => rings (act s)
    | some (c, n, who) => if c = cmd && n = mlen && (st.isNone || st == some who) then act (s.boxTaken p) else rings (s.boxDone p 1 [])

/-- A bank of IRQMASK or REGIMG written (15 R346); a device context has none. -/
def Control.setIrqmask (t : Control) (st : Storer) (v : BitVec 6) : Control :=
  match st with
  | .port .a => t.irqs t.irqstat v t.irqB
  | .port .b => t.irqs t.irqstat t.irqA v
  | .service => { t with irqS := v }
  | .context _ => t

/-- REGIMG keeps bits [51:16]. -/
def Control.setRegimg (t : Control) (st : Storer) (v : Word) : Control :=
  let w := v &&& 0x000FFFFFFFFF0000
  match st with
  | .port .a => { t with imgA := w }
  | .port .b => { t with imgB := w }
  | .service => { t with imgS := w }
  | .context _ => t

/-- A store of 8 bytes to a control register at a local address; `va` is the address a context used. DEDUCED (entry 44); unsafe. -/
def State.regWrite (s : State) (st : Storer) (a : Nat) (va v : Word) : State × Res Unit :=
  let t := s.ctl
  let ctl := fun (f : Control → Control) => ({ s with ctl := f t }, Res.ok ())
  let r := regAt a
  if t.stage < r.stage1 then (if t.stage != 0 && r.owned then s.ownedStore st a (fun u => u) else (s, .ok ()))
  else match r with
  | .stage => s.stageStore st a v
  | .devsem => s.semStore st va v
  | .devid => s.ownedStore st a (fun u => if u.ctl.stage = 2 then { u with ctl := { u.ctl with devid := field v 9 0 } } else u)
  | .featReq => s.ownedStore st a (fun u => if u.ctl.stage = 2 then { u with ctl := { u.ctl with featReq := v } } else u)
  | .regcmd => s.cmdStore st a va v
  | .regimg => ctl (fun c => c.setRegimg st v)
  | .irqstat => ctl (fun c => c.irqs (c.irqstat &&& ~~~(v.setWidth 6)) c.irqA c.irqB)
  | .irqmask => ctl (fun c => c.setIrqmask st (v.setWidth 6))
  | .tlbinv => s.tlbStore st a va v
  | .logHead => ctl (fun c => { c with logHead := v })
  | .mbox p o =>
    if isContext st then (s, regFault .priv va v)
    else if o = 0 then (s.boxCommand p st v, .ok ())
    else if 0x100 ≤ o then ({ s with ctl := t.setBox p ((t.box p).putBytes (o - 0x100) (leBytes 8 v.toNat)) }, .ok ())
    else (s, .ok ())
  | .powercap => s.ownedStore st a (fun u =>
      { u with ctl := { u.ctl with powercap := v.setWidth 12 } })
  | .window n o =>
    let w := s.io.windows.getD n Window.zero
    let put := fun (w' : Window) => ({ s with io := { s.io with windows := s.io.windows.insert n w' } }, Res.ok ())
    if o = 0 then put { w with qhandle := v }
    else if o = 8 then s.doorbell st n a va v
    else if o = 0x18 then put { w with region := v.setWidth 32 }
    else if 0x40 ≤ o && o < 0x80 then put { w with entry := setAt w.entry ((o - 0x40) / 8) v }
    else (s, .ok ())
  | .fabric o => if o = 0x10 then (s.fabricClear v, .ok ()) else (s, .ok ())
  | .route d =>
    if isContext st then (s, regFault .priv va v)
    else s.ownedStore st a (fun u =>
      { u with io := { u.io with routes := u.io.routes.put d (v.setWidth 16) 0, lostDevs := u.io.lostDevs.filter (· != d) } })
  | .clctl k => s.clusterStore st k a va v
  | .clusterCtr k n hi =>
    if !s.clusterRight st k then (s, regFault .priv va v)
    else
      let cl := s.cluster k
      (s.setCluster k { cl with counters := cl.counters.put n ((cl.counters.getD n Counter.zero).write hi v) Counter.zero }, .ok ())
  | .dieCtr d n hi =>
    if isContext st then (s, regFault .priv va v)
    else ctl (fun c => { c with counters := c.counters.put (16 * d + n) ((c.counters.getD (16 * d + n) Counter.zero).write hi v) Counter.zero })
  | .stepping | .featOffer | .featGrant | .regres | .logRec _ _ | .logTail | .logLost | .telemetry _ | .throttle | .rsv => (s, .ok ())

end Sys2Proof.Machine
end

