-- ==== Sys2Proof/Machine/Memory.lean ====
section
/-! DEFINITION. Loads, stores, ordered forms, bit fields, prefetch, atomics and fences (chapter 06, R126 to R139). -/
namespace Sys2Proof.Machine

/-- Whether an access is an aligned one of 8 bytes, the only form that a control register accepts (13 R303). -/
def aligned8 (va : Word) (n : Nat) : Bool := n == 8 && va.toNat % 8 == 0

/-- A load (06 R126, R128 to R132): `acq` is the scope of an ordered form; `what` says what the bytes give. A wider acquire reads the point
of coherence and empties the L1D (11 R263). -/
def loadBody (va : Word) (n : Nat) (mmio : Bool) (acq : Scope) (d : Reg) (what : RemoteWhat) (c : Nat) (x : Ctx) (s : State) : Exec :=
  let fresh := wideScope acq
  let need : Need := { Need.load with hit := !fresh, mmio := mmio && aligned8 va n }
  match s.checkAccess (s.whoOf c x) need anyPlace va n with
  | (s1, .fault f) => s.failRead s1 c x need va n f
  | (s1, .held) => again s1
  | (s1, .ok ps) =>
    match ps with
    | [(pa, _)] =>
      if s1.place pa = .mmio then
        .busy ((s1.deliver c x d what (leBytes 8 (s1.regRead (.context c) (localOf pa)).toNat)).acquire (coreOf c) acq) .reply
      else loadReply s1 ps fresh
    | _ => loadReply s1 ps fresh
where
  /-- The access itself. -/
  loadReply (s1 : State) (ps : List (Nat × Nat)) (fresh : Bool) : Exec :=
    match s1.loadParts (coreOf c) (some (.ctx c)) fresh x.got ps with
    | (s2, .bytes b) => .busy ((s2.deliver c x d what b).acquire (coreOf c) acq) .reply
    | (s2, .held) => again s2
    | (s2, .hostLine l off) => .hold s2 (s2.hostWait (va + word off) 0 l)
    | (s2, .first pa len) => .hold (s2.send x.region (x.level == .user) false pa (.read len)) (bufferWait va 0 pa len)
    | (s2, .away pa len pre post) =>
      .hold (s2.send x.region (x.level == .user) false pa (.read len)) (.remote ⟨d, va, 0, pa, len, pre, post, what, fresh⟩)

/-- A plain load of the I format (06 R130). -/
def plainLoad (d a : Reg) (i : BitVec 16) (n : Nat) (mmio : Bool) (what : RemoteWhat) (c : Nat) (x : Ctx) (s : State) : Exec :=
  loadBody (effAddr s x a i) n mmio .ctx d what c x s

/-- An ordered load (06 R131). -/
def orderedLoad (d a : Reg) (sc : Scope) (n : Nat) (mmio : Bool) (what : RemoteWhat) (c : Nat) (x : Ctx) (s : State) : Exec :=
  loadBody (s.reg x a) n mmio sc d what c x s

/-- The parts of a write made (06 R126; 11 R260). Where it has several, those in scratchpads of other devices pass their tests there first, and then
all are made in one step; a LAC operation away from this device waits for earlier accesses of the core to its line. DESIGN CHOICE (entry 63); unsafe. -/
def writeParts (va : Word) (acc : Nat) (ps : List (Nat × PathOp)) (c : Nat) (x : Ctx) (s : State) : Exec :=
  if ps.any (fun p => p.2.isLac && s.away p.1 && s.lineBusy (coreOf c) p.1) then again s
  else if 1 < ps.length then
    match s.probe x va acc (ps.map (fun p => (p.1, p.2.len))) with
    | some e => e
    | none =>
      match s.commit va acc ps c x with
      | (s1, none) => .ok s1
      | (s1, some st) => .busy s1 st
  else
    match s.storeParts (s.whoOf c x) (coreOf c) ps with
    | (s1, false) => .ok s1
    | (s1, true) => .hold s1 (awaitedOf va acc ps s)

/-- A store to a control register. -/
def registerStore (pa : Nat) (va : Word) (bs : List Byte) (c : Nat) (s : State) : Exec :=
  match s.regWrite (.context c) (localOf pa) va (word (leNat bs)) with
  | (s1, .ok _) => .ok s1
  | (s1, .fault f) => .trap s1 f
  | (s1, .held) => again s1

/-- A store of bytes, after its release (06 R126, R128 to R132; 11 R263; 13 R306). -/
def storeBody (va : Word) (bs : List Byte) (mmio : Bool) (rel : Option Scope) (c : Nat) (x : Ctx) (s : State) : Exec :=
  let need : Need := { Need.store with mmio := mmio && aligned8 va bs.length }
  s.releaseThen c rel (fun s0 =>
    match s0.checkAccess (s0.whoOf c x) need anyPlace va bs.length with
    | (s1, .fault f) => s0.failWrite s1 c x need va bs.length f
    | (s1, .held) => again s1
    | (s1, .ok ps) =>
      match ps with
      | [(pa, _)] =>
        if s1.place pa = .mmio then registerStore pa va bs c s1 else writeParts va 1 (splitStore ps bs) c x s1
      | _ => writeParts va 1 (splitStore ps bs) c x s1)

/-- The low n bytes of a register. -/
def lowBytes (s : State) (x : Ctx) (d : Reg) (n : Nat) : List Byte := leBytes n (s.reg x d).toNat
/-- The 16 bytes of a pair (06 R132). -/
def pairBytes (s : State) (x : Ctx) (d : Reg) : List Byte := lowBytes s x d 8 ++ lowBytes s x (d + 1) 8

/-- A plain store of the I format (06 R130). -/
def plainStore (d a : Reg) (i : BitVec 16) (n : Nat) (mmio : Bool) (c : Nat) (x : Ctx) (s : State) : Exec :=
  storeBody (effAddr s x a i) (lowBytes s x d n) mmio none c x s

/-- An ordered store (06 R131). -/
def orderedStore (d a : Reg) (sc : Scope) (n : Nat) (mmio : Bool) (c : Nat) (x : Ctx) (s : State) : Exec :=
  storeBody (s.reg x a) (lowBytes s x d n) mmio (some sc) c x s

/-- LB (06 R130). -/
def execLb (d a : Reg) (i : BitVec 16) (s : State) : Host.Outcome State Fault Refusal :=
  runSwarm (.lb d a i) [] false [a] (plainLoad d a i 1 false (.load true)) s

/-- LBU (06 R130). -/
def execLbu (d a : Reg) (i : BitVec 16) (s : State) : Host.Outcome State Fault Refusal :=
  runSwarm (.lbu d a i) [] false [a] (plainLoad d a i 1 false (.load false)) s

/-- LH (06 R130). -/
def execLh (d a : Reg) (i : BitVec 16) (s : State) : Host.Outcome State Fault Refusal :=
  runSwarm (.lh d a i) [] false [a] (plainLoad d a i 2 false (.load true)) s

/-- LHU (06 R130). -/
def execLhu (d a : Reg) (i : BitVec 16) (s : State) : Host.Outcome State Fault Refusal :=
  runSwarm (.lhu d a i) [] false [a] (plainLoad d a i 2 false (.load false)) s

/-- LW (06 R130). -/
def execLw (d a : Reg) (i : BitVec 16) (s : State) : Host.Outcome State Fault Refusal :=
  runSwarm (.lw d a i) [] false [a] (plainLoad d a i 4 false (.load true)) s

/-- LWU (06 R130). -/
def execLwu (d a : Reg) (i : BitVec 16) (s : State) : Host.Outcome State Fault Refusal :=
  runSwarm (.lwu d a i) [] false [a] (plainLoad d a i 4 false (.load false)) s

/-- LD (06 R130). -/
def execLd (d a : Reg) (i : BitVec 16) (s : State) : Host.Outcome State Fault Refusal :=
  runSwarm (.ld d a i) [] false [a] (plainLoad d a i 8 true (.load false)) s

/-- LQ (06 R132). -/
def execLq (d a : Reg) (i : BitVec 16) (s : State) : Host.Outcome State Fault Refusal :=
  runSwarm (.lq d a i) [] false [a] (plainLoad d a i 16 false .pair) s

/-- SB (06 R130). -/
def execSb (d a : Reg) (i : BitVec 16) (s : State) : Host.Outcome State Fault Refusal :=
  runSwarm (.sb d a i) [] false [d, a] (plainStore d a i 1 false) s

/-- SH (06 R130). -/
def execSh (d a : Reg) (i : BitVec 16) (s : State) : Host.Outcome State Fault Refusal :=
  runSwarm (.sh d a i) [] false [d, a] (plainStore d a i 2 false) s

/-- SW (06 R130). -/
def execSw (d a : Reg) (i : BitVec 16) (s : State) : Host.Outcome State Fault Refusal :=
  runSwarm (.sw d a i) [] false [d, a] (plainStore d a i 4 false) s

/-- SD (06 R130). -/
def execSd (d a : Reg) (i : BitVec 16) (s : State) : Host.Outcome State Fault Refusal :=
  runSwarm (.sd d a i) [] false [d, a] (plainStore d a i 8 true) s

/-- SQ (06 R132). -/
def execSq (d a : Reg) (i : BitVec 16) (s : State) : Host.Outcome State Fault Refusal :=
  runSwarm (.sq d a i) [] false [d, d + 1, a] (fun c x s => storeBody (effAddr s x a i) (pairBytes s x d) false none c x s) s

/-- The ordered form of LB (06 R131). -/
def execMemordLb (d a : Reg) (sc : Scope) (s : State) : Host.Outcome State Fault Refusal :=
  runSwarm (.memordLb d a sc) [] false [a] (orderedLoad d a sc 1 false (.load true)) s

/-- The ordered form of LBU (06 R131). -/
def execMemordLbu (d a : Reg) (sc : Scope) (s : State) : Host.Outcome State Fault Refusal :=
  runSwarm (.memordLbu d a sc) [] false [a] (orderedLoad d a sc 1 false (.load false)) s

/-- The ordered form of LH (06 R131). -/
def execMemordLh (d a : Reg) (sc : Scope) (s : State) : Host.Outcome State Fault Refusal :=
  runSwarm (.memordLh d a sc) [] false [a] (orderedLoad d a sc 2 false (.load true)) s

/-- The ordered form of LHU (06 R131). -/
def execMemordLhu (d a : Reg) (sc : Scope) (s : State) : Host.Outcome State Fault Refusal :=
  runSwarm (.memordLhu d a sc) [] false [a] (orderedLoad d a sc 2 false (.load false)) s

/-- The ordered form of LW (06 R131). -/
def execMemordLw (d a : Reg) (sc : Scope) (s : State) : Host.Outcome State Fault Refusal :=
  runSwarm (.memordLw d a sc) [] false [a] (orderedLoad d a sc 4 false (.load true)) s

/-- The ordered form of LWU (06 R131). -/
def execMemordLwu (d a : Reg) (sc : Scope) (s : State) : Host.Outcome State Fault Refusal :=
  runSwarm (.memordLwu d a sc) [] false [a] (orderedLoad d a sc 4 false (.load false)) s

/-- The ordered form of LD (06 R131). -/
def execMemordLd (d a : Reg) (sc : Scope) (s : State) : Host.Outcome State Fault Refusal :=
  runSwarm (.memordLd d a sc) [] false [a] (orderedLoad d a sc 8 true (.load false)) s

/-- The ordered form of LQ (06 R131). -/
def execMemordLq (d a : Reg) (sc : Scope) (s : State) : Host.Outcome State Fault Refusal :=
  runSwarm (.memordLq d a sc) [] false [a] (orderedLoad d a sc 16 false .pair) s

/-- The ordered form of SB (06 R131). -/
def execMemordSb (d a : Reg) (sc : Scope) (s : State) : Host.Outcome State Fault Refusal :=
  runSwarm (.memordSb d a sc) [] false [d, a] (orderedStore d a sc 1 false) s

/-- The ordered form of SH (06 R131). -/
def execMemordSh (d a : Reg) (sc : Scope) (s : State) : Host.Outcome State Fault Refusal :=
  runSwarm (.memordSh d a sc) [] false [d, a] (orderedStore d a sc 2 false) s

/-- The ordered form of SW (06 R131). -/
def execMemordSw (d a : Reg) (sc : Scope) (s : State) : Host.Outcome State Fault Refusal :=
  runSwarm (.memordSw d a sc) [] false [d, a] (orderedStore d a sc 4 false) s

/-- The ordered form of SD (06 R131). -/
def execMemordSd (d a : Reg) (sc : Scope) (s : State) : Host.Outcome State Fault Refusal :=
  runSwarm (.memordSd d a sc) [] false [d, a] (orderedStore d a sc 8 true) s

/-- The ordered form of SQ (06 R131). -/
def execMemordSq (d a : Reg) (sc : Scope) (s : State) : Host.Outcome State Fault Refusal :=
  runSwarm (.memordSq d a sc) [] false [d, d + 1, a] (fun c x s => storeBody (s.reg x a) (pairBytes s x d) false (some sc) c x s) s

/-- The bit address BA of LBIT and SBIT (06 R133). -/
def bitAddr (base off : Word) : Nat := (base.toNat * 8 + off.toNat) % 2 ^ 67
/-- Bytes that a field of w bits at bit `sh` of a byte spans. -/
def bitSpan (sh w : Nat) : Nat := ceilDiv (sh + w) 8

/-- LBIT (06 R133). -/
def execLbit (d a b : Reg) (sx : Bool) (w : BitVec 3) (s : State) : Host.Outcome State Fault Refusal :=
  runSwarm (.lbit d a b sx w) [] false [a, b] (fun c x s =>
    let ba := bitAddr (s.reg x a) (s.reg x b)
    let sh := ba % 8
    let n := w.toNat + 1
    loadBody (word (ba / 8)) (bitSpan sh n) false .ctx d (.bits sh n sx) c x s) s

/-- The parts of a write cut at doubleword boundaries (06 R134). -/
def cutDwords : List (Nat × Nat) → List (Nat × Nat)
  | [] => []
  | (pa, n) :: l =>
    let n1 := Nat.min n (8 - pa % 8)
    if n1 = n then (pa, n) :: cutDwords l else (pa, n1) :: (pa + n1, n - n1) :: cutDwords l

/-- The parts of an SBIT with their masks and data. -/
def splitBits : List (Nat × Nat) → List Byte → List Byte → List (Nat × PathOp)
  | [], _, _ => []
  | (pa, n) :: l, m, v => (pa, .bits (m.take n) (v.take n)) :: splitBits l (m.drop n) (v.drop n)

/-- SBIT (06 R133, R134): one step for each doubleword it touches. -/
def execSbit (d a b : Reg) (w : BitVec 3) (s : State) : Host.Outcome State Fault Refusal :=
  runSwarm (.sbit d a b w) [] false [d, a, b] (fun c x s =>
    let ba := bitAddr (s.reg x a) (s.reg x b)
    let sh := ba % 8
    let n := w.toNat + 1
    let span := bitSpan sh n
    let va := word (ba / 8)
    match s.checkAccess (s.whoOf c x) Need.store anyPlace va span with
    | (s1, .fault f) => s.failWrite s1 c x Need.store va span f
    | (s1, .held) => again s1
    | (s1, .ok ps) =>
      writeParts va 1 (splitBits (cutDwords ps) (leBytes span ((2 ^ n - 1) * 2 ^ sh))
        (leBytes span (field (s.reg x d) (n - 1) 0 * 2 ^ sh))) c x s1) s

/-- The page of an address brought into the TLBs, with no fault (06 R135). -/
def prefetchPage (va : Word) (c : Nat) (x : Ctx) (s : State) : State × Option Nat :=
  match s.xlate (s.whoOf c x) { Need.load with hit := true } anyPlace va with
  | (s1, .ok pa) => (s1, some pa)
  | (s1, _) => (s1, none)

/-- The line of an address brought into the issuing core's L1D, when it may be read (06 R135; 11 R261). -/
def prefetchLine (core pa : Nat) (s : State) : State :=
  match s.place pa with
  | .hbm =>
    let l := localOf pa / 64
    if ((s.core core).l1d.find? l).isSome || s.heldAt none l || badIn s.bad (64 * l) 64 || s.lineBusy core pa then s
    else s.l1dAdd core l (s.lineAt l)
  | _ => s

/-- PFL (06 R135): the Stacks hold no state that a program can see, so hint 1 does no more than hint 2. An error in Ws(a) drops the prefetch,
which raises no fault. -/
def execPfl (h : PflHint) (a : Reg) (i : BitVec 16) (s : State) : Host.Outcome State Fault Refusal :=
  runSwarm (.pfl h a i) [] false [] (fun c x s =>
    if (badSource s x [a]).isSome then .ok s
    else match prefetchPage (effAddr s x a i) c x s with
    | (s1, some pa) =>
      match h with
      | .l1 => .ok (prefetchLine (coreOf c) pa s1)
      | .l2 => .ok s1
      | .tlb => .ok s1
    | (_, none) => .ok s) s

/-- The functions of the AMO major by their codes (04 R92, 06 R136). -/
inductive AmoFn where
  | add | and | or | xor | min | max | minu | maxu | swp | fadd | cas
  deriving DecidableEq, Repr

/-- The code of a function. -/
def AmoFn.num : AmoFn → Nat
  | .add => 0 | .and => 1 | .or => 2 | .xor => 3 | .min => 4 | .max => 5 | .minu => 6 | .maxu => 7 | .swp => 8 | .fadd => 9 | .cas => 10

/-- The function of a code, for a request of another device. -/
def AmoFn.ofNum (n : Nat) : AmoFn :=
  match n with
  | 0 => .add | 1 => .and | 2 => .or | 3 => .xor | 4 => .min | 5 => .max | 6 => .minu | 7 => .maxu | 8 => .swp | 9 => .fadd | _ => .cas

/-- The new value of an atomic step over w bits (06 R136): old value, operand, and the expected value of CAS. -/
def amoNew (f : AmoFn) (w : Nat) (old x e : Nat) : Nat :=
  let a := BitVec.ofNat w old
  let b := BitVec.ofNat w x
  match f with
  | .add => (a + b).toNat
  | .and => (a &&& b).toNat
  | .or => (a ||| b).toNat
  | .xor => (a ^^^ b).toNat
  | .min => (if a.sle b then a else b).toNat
  | .max => (if b.sle a then a else b).toNat
  | .minu => (if a ≤ b then a else b).toNat
  | .maxu => (if b ≤ a then a else b).toNat
  | .swp => b.toNat
  | .fadd => ((if w = 64 then fp64 else fp32).addOp 0 a.toNat b.toNat).1
  | .cas => if a = BitVec.ofNat w e then b.toNat else a.toNat

/-- Whether a step writes: the value differs, or the function is SWP or CAS (06 R136). -/
def amoWrites (f : AmoFn) (old new : Nat) : Bool := old != new || f == .swp || f == .cas

/-- The step at this device's memory: the state after, and the old value. -/
def State.amoStep (s : State) (f : AmoFn) (n a x e : Nat) : State × Nat :=
  let old := s.peek a n
  let new := amoNew f (8 * n) old x e
  (if amoWrites f old new then s.poke a (leBytes n new) else s, old)

/-- Bytes of a size. -/
def AmoSize.len (z : AmoSize) : Nat := match z with | .d => 8 | .w => 4

/-- Whether an order releases. -/
def Order.rel (p : Order) : Bool := match p with | .none => false | .acq => false | .rel => true | .acqrel => true
/-- Whether an order acquires. -/
def Order.acq (p : Order) : Bool := match p with | .none => false | .acq => true | .rel => false | .acqrel => true

/-- The issue of an atomic instruction takes its line out of the core's L1D, before its release and its step, which may be held (11 R261). -/
def State.forgetIssued (s : State) (c : Nat) (x : Ctx) (need : Need) (va : Word) (n : Nat) : State :=
  if (s.core (coreOf c)).l1d.isEmpty then s
  else match (s.checkPart (s.whoOf c x) need anyPlace va n).2 with
    | .ok pa => s.forget (coreOf c) pa n
    | .fault _ | .held => s

/-- An atomic instruction (06 R136, R137): the step is made where the location lies. -/
def amoBody (f : AmoFn) (d a b : Reg) (z : AmoSize) (sc : Scope) (p : Order) (c : Nat) (x : Ctx) (s : State) : Exec :=
  let va := s.reg x a
  let n := AmoSize.len z
  if va.toNat % n != 0 then .trap s (flt .align va 0 3)
  else (s.forgetIssued c x Need.rmw va n).releaseThen c (if Order.rel p then some sc else none) (fun s0 =>
    match s0.checkPart (s0.whoOf c x) Need.rmw anyPlace va n with
    | (s1, .fault f) => .trap s1 f
    | (s1, .held) => again s1
    | (s1, .ok pa) =>
      let acq := if Order.acq p then sc else .ctx
      let opnd := (s.reg x b).toNat % 2 ^ (8 * n)
      let expd := (s.reg x d).toNat % 2 ^ (8 * n)
      match s1.place pa with
      | .remote _ =>
        if s1.lineBusy (coreOf c) pa then again s1
        else .hold ((s1.send x.region (x.level == .user) false pa (.amo f.num (z == .w) (word opnd) (word expd))).enterToken c (coreOf c) pa
            x.region) (.remote ⟨d, va, 3, pa, n, [], [], .load (z == .w), wideScope acq⟩)
      | .hbm | .pad _ _ | .store _ _ | .mmio | .host | .hole =>
        match (s1.forget (coreOf c) pa n).reach (coreOf c) (some (.ctx c)) true pa n with
        | (s2, false) => again s2
        | (s2, true) =>
          let r := s2.amoStep f n (localOf pa) opnd expd
          .busy ((r.1.deliver c x d (.load true) (leBytes n r.2)).acquire (coreOf c) acq) .reply)

/-- AMO.ADD (06 R136). -/
def execAmoAdd (d a b : Reg) (z : AmoSize) (sc : Scope) (p : Order) (s : State) : Host.Outcome State Fault Refusal :=
  runSwarm (.amoAdd d a b z sc p) [] false [a, b] (amoBody .add d a b z sc p) s

/-- AMO.AND (06 R136). -/
def execAmoAnd (d a b : Reg) (z : AmoSize) (sc : Scope) (p : Order) (s : State) : Host.Outcome State Fault Refusal :=
  runSwarm (.amoAnd d a b z sc p) [] false [a, b] (amoBody .and d a b z sc p) s

/-- AMO.OR (06 R136). -/
def execAmoOr (d a b : Reg) (z : AmoSize) (sc : Scope) (p : Order) (s : State) : Host.Outcome State Fault Refusal :=
  runSwarm (.amoOr d a b z sc p) [] false [a, b] (amoBody .or d a b z sc p) s

/-- AMO.XOR (06 R136). -/
def execAmoXor (d a b : Reg) (z : AmoSize) (sc : Scope) (p : Order) (s : State) : Host.Outcome State Fault Refusal :=
  runSwarm (.amoXor d a b z sc p) [] false [a, b] (amoBody .xor d a b z sc p) s

/-- AMO.MIN (06 R136). -/
def execAmoMin (d a b : Reg) (z : AmoSize) (sc : Scope) (p : Order) (s : State) : Host.Outcome State Fault Refusal :=
  runSwarm (.amoMin d a b z sc p) [] false [a, b] (amoBody .min d a b z sc p) s

/-- AMO.MAX (06 R136). -/
def execAmoMax (d a b : Reg) (z : AmoSize) (sc : Scope) (p : Order) (s : State) : Host.Outcome State Fault Refusal :=
  runSwarm (.amoMax d a b z sc p) [] false [a, b] (amoBody .max d a b z sc p) s

/-- AMO.MINU (06 R136). -/
def execAmoMinu (d a b : Reg) (z : AmoSize) (sc : Scope) (p : Order) (s : State) : Host.Outcome State Fault Refusal :=
  runSwarm (.amoMinu d a b z sc p) [] false [a, b] (amoBody .minu d a b z sc p) s

/-- AMO.MAXU (06 R136). -/
def execAmoMaxu (d a b : Reg) (z : AmoSize) (sc : Scope) (p : Order) (s : State) : Host.Outcome State Fault Refusal :=
  runSwarm (.amoMaxu d a b z sc p) [] false [a, b] (amoBody .maxu d a b z sc p) s

/-- AMO.SWP (06 R136). -/
def execAmoSwp (d a b : Reg) (z : AmoSize) (sc : Scope) (p : Order) (s : State) : Host.Outcome State Fault Refusal :=
  runSwarm (.amoSwp d a b z sc p) [] false [a, b] (amoBody .swp d a b z sc p) s

/-- AMO.FADD (06 R136). -/
def execAmoFadd (d a b : Reg) (z : AmoSize) (sc : Scope) (p : Order) (s : State) : Host.Outcome State Fault Refusal :=
  runSwarm (.amoFadd d a b z sc p) (if z = .d then [5] else []) false [a, b] (amoBody .fadd d a b z sc p) s

/-- AMOCAS (06 R136). -/
def execAmocas (d a b : Reg) (z : AmoSize) (sc : Scope) (p : Order) (s : State) : Host.Outcome State Fault Refusal :=
  runSwarm (.amocas d a b z sc p) [] false [a, b, d] (amoBody .cas d a b z sc p) s

/-- FENCE (06 R138). -/
def execFence (sc : Scope) (p : Order) (s : State) : Host.Outcome State Fault Refusal :=
  runSwarm (.fence sc p) [] false [] (fun c _ s =>
    s.releaseThen c (if Order.rel p then some sc else none) (fun s1 =>
      .ok (if Order.acq p then s1.acquire (coreOf c) sc else s1))) s

/-- I-caches emptied; with `pages` the fetch agents forget the cores' pages too (14 R331). -/
def State.clearICaches (s : State) (hit : Nat → Bool) (pages : Bool) : State :=
  { s with cores := s.cores.map (fun e =>
      if hit e.1 then (e.1, { e.2 with icache := [], fetchPage := if pages then none else e.2.fetchPage }) else e) }

/-- The line buffers of the fetch agents of some dies emptied. -/
def State.clearBuffers (s : State) (hit : Nat → Bool) : State :=
  { s with io := { s.io with fetchBuf := (List.range 4).map (fun i => if hit i then [] else s.io.fetchBuf.getD i []) } }

/-- The I-caches and the fetch agents within a scope (06 R139; 14 R331). Below DIE no agent is in scope, and yet a fetch of a core in scope
reads no line older than the Stacks: the lines that the die's agent holds leave. DEDUCED (entry 60); unsafe. -/
def State.icSync (s : State) (c : Nat) (sc : Scope) : State :=
  let die := dieOfCluster (clusterOf c)
  match sc with
  | .ctx | .core => (s.clearICaches (fun n => n == coreOf c) false).clearBuffers (fun i => i == die)
  | .crew => (s.clearICaches (fun n => n / 4 == clusterOf c) false).clearBuffers (fun i => i == die)
  | .die => (s.clearICaches (fun n => n / 256 == die) true).clearBuffers (fun i => i == die)
  | .pkg | .domain | .sys => (s.clearICaches (fun _ => true) true).clearBuffers (fun _ => true)

/-- ICSYNC (06 R139). -/
def execIcsync (sc : Scope) (s : State) : Host.Outcome State Fault Refusal :=
  runSwarm (.icsync sc) [] false [] (fun c _ s => .ok (s.icSync c sc)) s

end Sys2Proof.Machine
end

