-- ==== Sys2Proof/Machine/FloatOps.lean ====
section
/-! DEFINITION. Scalar floating point, the special-function unit, packed lanes and the long accumulator (chapter 06, R140 to R158). -/
namespace Sys2Proof.Machine

/-- A scalar operation on two operands (06 R141, R143). -/
def scalar2 (d a b : Reg) (p : Prec) (f : Fmt → Ctx → Nat → Nat → Nat × Nat) : Nat → Ctx → State → Exec :=
  flagged d (fun x s => f (fmtOf p) x (fpArg p (s.reg x a)) (fpArg p (s.reg x b)))

/-- FADD (06 R141). -/
def execFadd (d a b : Reg) (r : Rm) (p : Prec) (s : State) : Host.Outcome State Fault Refusal :=
  runSwarm (.fadd d a b r p) (fpFeat p) false [a, b] (scalar2 d a b p (fun f x u v => f.addOp (x.mode r) u v)) s
/-- FSUB (06 R141): the sum with b's sign turned. -/
def execFsub (d a b : Reg) (r : Rm) (p : Prec) (s : State) : Host.Outcome State Fault Refusal :=
  runSwarm (.fsub d a b r p) (fpFeat p) false [a, b] (scalar2 d a b p (fun f x u v => f.addOp (x.mode r) u (f.flip v))) s
/-- FMUL (06 R141). -/
def execFmul (d a b : Reg) (r : Rm) (p : Prec) (s : State) : Host.Outcome State Fault Refusal :=
  runSwarm (.fmul d a b r p) (fpFeat p) false [a, b] (scalar2 d a b p (fun f x u v => f.mulOp (x.mode r) u v)) s
/-- FMA (06 R141): wd is the addend. -/
def execFma (d a b : Reg) (r : Rm) (p : Prec) (s : State) : Host.Outcome State Fault Refusal :=
  runSwarm (.fma d a b r p) (fpFeat p) false [a, b, d] (flagged d (fun x s =>
    (fmtOf p).fmaOp (x.mode r) (fpArg p (s.reg x a)) (fpArg p (s.reg x b)) (fpArg p (s.reg x d)))) s
/-- FMIN (06 R143). -/
def execFmin (d a b : Reg) (p : Prec) (s : State) : Host.Outcome State Fault Refusal :=
  runSwarm (.fmin d a b p) (fpFeat p) false [a, b] (scalar2 d a b p (fun f _ u v => f.minMax false u v)) s
/-- FMAX (06 R143). -/
def execFmax (d a b : Reg) (p : Prec) (s : State) : Host.Outcome State Fault Refusal :=
  runSwarm (.fmax d a b p) (fpFeat p) false [a, b] (scalar2 d a b p (fun f _ u v => f.minMax true u v)) s
/-- FCMP (06 R144). -/
def execFcmp (d a b : Reg) (q : CmpOp) (p : Prec) (s : State) : Host.Outcome State Fault Refusal :=
  runSwarm (.fcmp d a b q p) (fpFeat p) false [a, b]
    (scalar2 d a b p (fun f _ u v => ((if (f.cmpOp q u v).1 then 1 else 0), (f.cmpOp q u v).2))) s

/-- FSGN on codes (06 R145). -/
def Fmt.sgnOp (f : Fmt) (o : SgnOp) (a b : Nat) : Nat :=
  let top := 2 ^ (f.width - 1)
  let sa := a / top % 2
  let sb := b / top % 2
  let sign := match o with
    | .j => sb
    | .n => 1 - sb
    | .x => (sa + sb) % 2
  a % top + sign * top

/-- FSGN (06 R145). -/
def execFsgn (d a b : Reg) (o : SgnOp) (p : Prec) (s : State) : Host.Outcome State Fault Refusal :=
  runSwarm (.fsgn d a b o p) (fpFeat p) false [a, b] (scalar2 d a b p (fun f _ u v => (f.sgnOp o u v, 0))) s

/-- A value rounded to an integer of n bits, and its code widened to 64 (02 R52). -/
def toIntCode (rm : Nat) (signed : Bool) (n : Nat) (v : XVal) : Nat × Nat :=
  let r := if signed then v.toInt rm (-(2 ^ (n - 1))) (2 ^ (n - 1) - 1) else v.toInt rm 0 (2 ^ n - 1)
  ((BitVec.ofInt 64 r.1).toNat, r.2)

/-- FCVT on the whole source register (06 R146). -/
def cvtOp (o : CvtOp) (rm : Nat) (v : Word) : Nat × Nat :=
  let x32 := field v 31 0
  match o with
  | .d_s => convert fp32 fp64 0 x32
  | .s_d => convert fp64 fp32 rm v.toNat
  | .s_bf => convert bf16 fp32 0 (field v 15 0)
  | .bf_s => convert fp32 bf16 0 x32
  | .s_h => convert fp16 fp32 0 (field v 15 0)
  | .h_s => convert fp32 fp16 0 x32
  | .s_e4 => convert e4m3 fp32 0 (field v 7 0)
  | .e4_s => convert fp32 e4m3 0 x32
  | .s_e5 => convert e5m2 fp32 0 (field v 7 0)
  | .e5_s => convert fp32 e5m2 0 x32
  | .s_f4 => convert fp4 fp32 0 (field v 3 0)
  | .f4_s => convert fp32 fp4 0 x32
  | .l_d => toIntCode rm true 64 (fp64.decode v.toNat)
  | .lu_d => toIntCode rm false 64 (fp64.decode v.toNat)
  | .l_s => toIntCode rm true 64 (fp32.decode x32)
  | .lu_s => toIntCode rm false 64 (fp32.decode x32)
  | .w_s => toIntCode rm true 32 (fp32.decode x32)
  | .wu_s => toIntCode rm false 32 (fp32.decode x32)
  | .d_l => fp64.round rm (XVal.ofInt v.toInt)
  | .d_lu => fp64.round rm (XVal.ofInt v.toNat)
  | .s_l => fp32.round rm (XVal.ofInt v.toInt)
  | .s_lu => fp32.round rm (XVal.ofInt v.toNat)
  | .s_w => fp32.round rm (XVal.ofInt (v.setWidth 32).toInt)

/-- Whether a conversion needs FP64 (15 R349). -/
def cvtFeat (o : CvtOp) : List Nat :=
  match o with
  | .d_s | .s_d | .l_d | .lu_d | .d_l | .d_lu => [5]
  | .s_bf | .bf_s | .s_h | .h_s | .s_e4 | .e4_s | .s_e5 | .e5_s | .s_f4 | .f4_s | .l_s | .lu_s | .w_s | .wu_s | .s_l | .s_lu | .s_w => []

/-- FCVT (06 R146). -/
def execFcvt (d a : Reg) (o : CvtOp) (r : Rm) (s : State) : Host.Outcome State Fault Refusal :=
  runSwarm (.fcvt d a o r) (cvtFeat o) false [a] (flagged d (fun x s => cvtOp o (x.mode r) (s.reg x a))) s

/-- Occupancy of the special-function unit (06 R148). -/
def sfuTime (fn : SfuFn) (p : Prec) : Nat :=
  match fn, p with
  | .div, .s => 12
  | .rcp, .s => 12
  | .div, .d => 20
  | .rcp, .d => 20
  | .sqrt, .s => 14
  | .rsq, .s => 14
  | .sqrt, .d => 24
  | .rsq, .d => 24
  | .exp2, .s => 16
  | .log2, .s => 16
  | .exp2, .d => 28
  | .log2, .d => 28

/-- The function of a request (06 R147). -/
def sfuOp (fn : SfuFn) (f : Fmt) (rm a b : Nat) : Nat × Nat :=
  match fn with
  | .div => f.divOp rm a b
  | .sqrt => f.sqrtOp rm a
  | .rcp => f.rcpOp rm a
  | .rsq => f.rsqOp rm a
  | .exp2 => f.exp2Op rm a
  | .log2 => f.log2Op rm a

/-- A request queued at the core's special-function unit (06 R148). -/
def sfuBody (fn : SfuFn) (d a b : Reg) (r : Rm) (p : Prec) (c : Nat) (x : Ctx) (s : State) : Exec :=
  let k := s.core (coreOf c)
  let fin := Nat.max s.now k.sfuFree + sfuTime fn p
  let req : SfuReq := ⟨k.sfuNext, slotOf c, BitVec.ofNat 8 (field (s.contWord x) 15 8), x.wp, d, fn, p, x.mode r, s.reg x a, s.reg x b, fin⟩
  .busy (s.setCore (coreOf c) { k with sfu := k.sfu ++ [req], sfuFree := fin, sfuNext := k.sfuNext + 1 }) (.waiting (.sfu k.sfuNext))

/-- FDIV (06 R147). -/
def execFdiv (d a b : Reg) (r : Rm) (p : Prec) (s : State) : Host.Outcome State Fault Refusal :=
  runSwarm (.fdiv d a b r p) (1 :: fpFeat p) false [a, b] (sfuBody .div d a b r p) s
/-- FSQRT (06 R147). -/
def execFsqrt (d a : Reg) (r : Rm) (p : Prec) (s : State) : Host.Outcome State Fault Refusal :=
  runSwarm (.fsqrt d a r p) (1 :: fpFeat p) false [a] (sfuBody .sqrt d a 0 r p) s
/-- FRCP (06 R147). -/
def execFrcp (d a : Reg) (r : Rm) (p : Prec) (s : State) : Host.Outcome State Fault Refusal :=
  runSwarm (.frcp d a r p) (1 :: fpFeat p) false [a] (sfuBody .rcp d a 0 r p) s
/-- FRSQ (06 R147). -/
def execFrsq (d a : Reg) (r : Rm) (p : Prec) (s : State) : Host.Outcome State Fault Refusal :=
  runSwarm (.frsq d a r p) (1 :: fpFeat p) false [a] (sfuBody .rsq d a 0 r p) s
/-- FEXP2 (06 R147). -/
def execFexp2 (d a : Reg) (r : Rm) (p : Prec) (s : State) : Host.Outcome State Fault Refusal :=
  runSwarm (.fexp2 d a r p) (1 :: fpFeat p) false [a] (sfuBody .exp2 d a 0 r p) s
/-- FLOG2 (06 R147). -/
def execFlog2 (d a : Reg) (r : Rm) (p : Prec) (s : State) : Host.Outcome State Fault Refusal :=
  runSwarm (.flog2 d a r p) (1 :: fpFeat p) false [a] (sfuBody .log2 d a 0 r p) s

/-- The oldest request of a core's special-function unit writes its result (06 R148, R149): the register of the workspace that issued it, and the
flags of the context, if it is still bound and waits for this request. Only a changed generation suppresses it. -/
def sfuDeliver (core : Nat) (q : SfuReq) (s : State) : State :=
  let c := 64 * core + q.slot
  if BitVec.ofNat 8 (field (s.peek64 q.wp.toNat) 15 8) != q.gen then s
  else
    let r := sfuOp q.fn (fmtOf q.prec) q.rm (fpArg q.prec q.a) (fpArg q.prec q.b)
    let t := if q.d = 0 then s else s.poke64 (q.wp.toNat + 8 * q.d.toNat) (word r.1)
    match s.ctx? c with
    | some x => if x.wp = q.wp && x.st = .waiting (.sfu q.num) then (t.raise c r.2).wake c else t
    | none => t

/-- SFU_RESULT (06 R148): the end of service of the oldest request. -/
def execSfuResult (core : Nat) (s : State) : Host.Outcome State Fault Refusal :=
  let k := s.core core
  match k.sfu with
  | q :: l => if q.finish ≤ s.now then .next (sfuDeliver core q (s.setCore core { k with sfu := l })) else .next s
  | [] => .next s

/-- Width of a lane (06 R150). -/
def LaneKind.width (k : LaneKind) : Nat := match k with | .b => 8 | .h => 16 | .w => 32 | .bf => 16 | .s => 32
/-- Format of a float lane. -/
def LaneKind.fmt (k : LaneKind) : Fmt := match k with | .bf => bf16 | .s => fp32 | .b => fp32 | .h => fp32 | .w => fp32
/-- Rounding mode of a float lane (06 R150). -/
def laneMode (k : LaneKind) (x : Ctx) : Nat := match k with | .s => x.rm | .bf => 0 | .b => 0 | .h => 0 | .w => 0

/-- Lane i of width w. -/
def lane (w i : Nat) (v : Word) : Nat := field v (w * i + w - 1) (w * i)
/-- A register from its lanes, lane 0 first. -/
def packLanes (w : Nat) : List Nat → Nat
  | [] => 0
  | v :: l => v % 2 ^ w + 2 ^ w * packLanes w l
/-- Every lane computed; the flags of all lanes together (06 R150). -/
def eachLane (w : Nat) (f : Nat → Nat × Nat) : Nat × Nat :=
  let r := (List.range (64 / w)).map f
  (packLanes w (r.map (·.1)), r.foldl (fun n q => n ||| q.2) 0)

/-- An integer result in a lane (06 R151): wrapped, or saturated to the signed or unsigned range. -/
def laneInt (w : Nat) (sat u : Bool) (v : Int) : Nat :=
  if !sat then (BitVec.ofInt w v).toNat
  else if u then (if v < 0 then 0 else if 2 ^ w ≤ v then 2 ^ w - 1 else v.toNat)
  else
    let hi : Int := 2 ^ (w - 1) - 1
    let lo : Int := -(2 ^ (w - 1))
    (BitVec.ofInt w (if hi < v then hi else if v < lo then lo else v)).toNat

/-- The value of an integer lane. -/
def laneVal (w : Nat) (u : Bool) (v : Nat) : Int := if u then (v : Int) else (BitVec.ofNat w v).toInt

/-- A packed operation lane by lane (06 R151), with an integer form and a float form; the third operand is wd's lane. -/
def packed (d a b : Reg) (k : LaneKind) (fi : Int → Int → Int → Int) (sat u : Bool) (ff : Fmt → Nat → Nat → Nat → Nat → Nat × Nat) :
    Nat → Ctx → State → Exec :=
  flagged d (fun x s =>
    let w := LaneKind.width k
    eachLane w (fun i =>
      let p := lane w i (s.reg x a)
      let q := lane w i (s.reg x b)
      let r := lane w i (s.reg x d)
      if k.isFloat then ff (LaneKind.fmt k) (laneMode k x) p q r
      else (laneInt w sat u (fi (laneVal w u p) (laneVal w u q) (laneVal w u r)), 0)))

/-- PADD (06 R151). -/
def execPadd (d a b : Reg) (u sat : Bool) (k : LaneKind) (s : State) : Host.Outcome State Fault Refusal :=
  runSwarm (.padd d a b u sat k) [2] false [a, b] (packed d a b k (fun p q _ => p + q) sat u (fun f m p q _ => f.addOp m p q)) s
/-- PSUB (06 R151). -/
def execPsub (d a b : Reg) (u sat : Bool) (k : LaneKind) (s : State) : Host.Outcome State Fault Refusal :=
  runSwarm (.psub d a b u sat k) [2] false [a, b]
    (packed d a b k (fun p q _ => p - q) sat u (fun f m p q _ => f.addOp m p (f.flip q))) s
/-- PMUL (06 R151). -/
def execPmul (d a b : Reg) (u sat : Bool) (k : LaneKind) (s : State) : Host.Outcome State Fault Refusal :=
  runSwarm (.pmul d a b u sat k) [2] false [a, b] (packed d a b k (fun p q _ => p * q) sat u (fun f m p q _ => f.mulOp m p q)) s
/-- PFMA (06 R151). -/
def execPfma (d a b : Reg) (u sat : Bool) (k : LaneKind) (s : State) : Host.Outcome State Fault Refusal :=
  runSwarm (.pfma d a b u sat k) [2] false [a, b, d]
    (packed d a b k (fun p q r => p * q + r) sat u (fun f m p q r => f.fmaOp m p q r)) s
/-- PMIN (06 R151). -/
def execPmin (d a b : Reg) (u : Bool) (k : LaneKind) (s : State) : Host.Outcome State Fault Refusal :=
  runSwarm (.pmin d a b u k) [2] false [a, b] (packed d a b k (fun p q _ => min p q) false u (fun f _ p q _ => f.minMax false p q)) s
/-- PMAX (06 R151). -/
def execPmax (d a b : Reg) (u : Bool) (k : LaneKind) (s : State) : Host.Outcome State Fault Refusal :=
  runSwarm (.pmax d a b u k) [2] false [a, b] (packed d a b k (fun p q _ => max p q) false u (fun f _ p q _ => f.minMax true p q)) s

/-- An exact sum of terms, and whether it is invalid (06 R142, R152): a NaN term decides first, and opposite infinities beside it raise nothing.
DEDUCED (entry 76); unsafe. -/
def sumExact (rm : Nat) (ts : List XVal) : XVal × Bool :=
  if ts.any (· == .nan) then (.nan, false)
  else match ts with
    | [] => (.fin false 0 0, false)
    | t :: l => l.foldl (fun (acc : XVal × Bool) v => let r := XVal.add rm acc.1 v; (r.1, acc.2 || r.2)) (t, false)

/-- PDOT on float lanes (06 R152). -/
def dotFloat (f : Fmt) (w rm : Nat) (acc : Nat) (a b : Word) : Nat × Nat :=
  let is := List.range (64 / w)
  let ps := is.map (fun i => (f.decode (lane w i a)).mul (f.decode (lane w i b)))
  let sn := is.any (fun i => f.snan (lane w i a) || f.snan (lane w i b))
  let r := sumExact rm (fp32.decode acc :: ps.map (·.1))
  let q := fp32.round rm r.1
  (q.1, q.2 ||| nvIf (sn || fp32.snan acc || r.2 || ps.any (·.2)))

/-- PDOT on integer lanes (06 R152). -/
def dotInt (w : Nat) (u : Bool) (acc a b : Word) : Nat :=
  (BitVec.ofInt 64 ((List.range (64 / w)).foldl (fun (n : Int) i => n + laneVal w u (lane w i a) * laneVal w u (lane w i b)) acc.toInt)).toNat

/-- PDOT (06 R152). -/
def execPdot (d a b : Reg) (u : Bool) (k : LaneKind) (s : State) : Host.Outcome State Fault Refusal :=
  runSwarm (.pdot d a b u k) [2] false [a, b, d] (flagged d (fun x s =>
    let w := LaneKind.width k
    if k.isFloat then dotFloat (LaneKind.fmt k) w x.rm (field (s.reg x d) 31 0) (s.reg x a) (s.reg x b)
    else (dotInt w u (s.reg x d) (s.reg x a) (s.reg x b), 0))) s

/-- PCVT (06 R153). -/
def pcvtOp (m : PcvtOp) (a b : Word) : Nat × Nat :=
  let four := fun (w i : Nat) => if i < 4 then lane w i a else lane w (i - 4) b
  let nar := fun (lo hi : Int) (v : Nat) =>
    let x := (BitVec.ofNat 16 v).toInt
    ((BitVec.ofInt 8 (if x < lo then lo else if hi < x then hi else x)).toNat, 0)
  match m with
  | .bf_s => eachLane 16 (fun i => convert fp32 bf16 0 (if i < 2 then lane 32 i a else lane 32 (i - 2) b))
  | .s_bfl => eachLane 32 (fun i => convert bf16 fp32 0 (lane 16 i a))
  | .s_bfh => eachLane 32 (fun i => convert bf16 fp32 0 (lane 16 (i + 2) a))
  | .e4_bf => eachLane 8 (fun i => convert bf16 e4m3 0 (four 16 i))
  | .e5_bf => eachLane 8 (fun i => convert bf16 e5m2 0 (four 16 i))
  | .b_h => eachLane 8 (fun i => nar (-128) 127 (four 16 i))
  | .bu_h => eachLane 8 (fun i => nar 0 255 (four 16 i))
  | .h_bl => eachLane 16 (fun i => (((BitVec.ofNat 8 (lane 8 i a)).signExtend 16).toNat, 0))
  | .h_bh => eachLane 16 (fun i => (((BitVec.ofNat 8 (lane 8 (i + 4) a)).signExtend 16).toNat, 0))

/-- PCVT (06 R153). -/
def execPcvt (d a b : Reg) (m : PcvtOp) (s : State) : Host.Outcome State Fault Refusal :=
  runSwarm (.pcvt d a b m) [2] false [a, b] (flagged d (fun x s => pcvtOp m (s.reg x a) (s.reg x b))) s

/-- PSHUF (06 R154). -/
def shuffle (a b old : Word) : Nat :=
  packLanes 8 ((List.range 8).map (fun i =>
    let j := lane 4 i b
    if j < 8 then lane 8 j a else lane 8 (j - 8) old))

/-- PSHUF (06 R154). -/
def execPshuf (d a b : Reg) (s : State) : Host.Outcome State Fault Refusal :=
  runSwarm (.pshuf d a b) [2] false [a, b, d] (result d (fun x s => word (shuffle (s.reg x a) (s.reg x b) (s.reg x d)))) s

/-- A predicate of PCMP on a lane (06 R155). -/
def laneCmp (q : PcmpOp) (k : LaneKind) (p r : Nat) : Bool × Nat :=
  let w := LaneKind.width k
  let f := LaneKind.fmt k
  if k.isFloat then
    match q with
    | .eq => f.cmpOp .eq p r
    | .lt => f.cmpOp .lt p r
    | .le => f.cmpOp .le p r
    | .ltuUn => f.cmpOp .un p r
  else
    match q with
    | .eq => (p == r, 0)
    | .lt => (decide (laneVal w false p < laneVal w false r), 0)
    | .le => (decide (laneVal w false p ≤ laneVal w false r), 0)
    | .ltuUn => (decide (p < r), 0)

/-- PCMP (06 R155). -/
def execPcmp (d a b : Reg) (q : PcmpOp) (k : LaneKind) (s : State) : Host.Outcome State Fault Refusal :=
  runSwarm (.pcmp d a b q k) [2] false [a, b] (flagged d (fun x s =>
    let w := LaneKind.width k
    eachLane w (fun i =>
      let r := laneCmp q k (lane w i (s.reg x a)) (lane w i (s.reg x b))
      (if r.1 then 2 ^ w - 1 else 0, r.2)))) s

/-- A long accumulator found for a step (06 R156, R157): 64-byte alignment, rights, and the 48 bytes of the record. -/
def lacFind (need : Need) (va : Word) (c : Nat) (x : Ctx) (s : State) (k : Nat → State → Exec) : Exec :=
  if va.toNat % 64 != 0 then .trap s (flt .align va 0 3)
  else match s.checkPart (s.whoOf c x) need anyPlace va 48 with
    | (s1, .fault f) => .trap s1 f
    | (s1, .held) => again s1
    | (s1, .ok pa) => k pa s1

/-- LACZ (06 R156). -/
def execLacz (a : Reg) (s : State) : Host.Outcome State Fault Refusal :=
  runSwarm (.lacz a) [3] false [a] (fun c x s =>
    let va := s.reg x a
    lacFind { Need.rmw with blind := true } va c x s (fun pa t => writeParts va 3 [(pa, .lacZero)] c x t)) s

/-- The distance of the first granule with an error that LACA meets at a record of this device (06 R157). -/
def State.lacError (s : State) (w : Who) (pa : Nat) (k : LacKind) (x : Word) : Option Nat :=
  match s.place pa with
  | .hbm | .pad _ _ | .store _ _ => (lacBad (s.met w pa) (localOf pa) k x).map (fun g => 8 * g - localOf pa)
  | .mmio | .host | .hole | .remote _ => none

/-- LACA (06 R156, R157): a signalling NaN raises NV in the issuing context. DESIGN CHOICE (entry 40); safe. -/
def execLaca (a b : Reg) (k : LacKind) (s : State) : Host.Outcome State Fault Refusal :=
  runSwarm (.laca a b k) [3] false [a, b] (fun c x s =>
    let va := s.reg x a
    let v := s.reg x b
    let nv := nvIf (lacOperand k v).2
    lacFind { Need.rmw with free := true } va c x s (fun pa t =>
      match t.lacError (t.whoOf c x) pa k v with
      | some d => .trap t (flt .eccUncorr (va + word d) 0 3)
      | none =>
        match writeParts va 3 [(pa, .lacAdd k v)] c x t with
        | .ok t1 => .ok (t1.raise c nv)
        | .hold t1 (.remote w) => .hold t1 (.remote { w with what := .flags nv })
        | e => e)) s

/-- LACR (06 R156): the step reads bytes 0 to 47; the context's mode and flags apply. -/
def execLacr (d a : Reg) (s : State) : Host.Outcome State Fault Refusal :=
  runSwarm (.lacr d a) [3] false [a] (fun c x s =>
    let va := s.reg x a
    lacFind { Need.rmw with only := true } va c x s (fun pa t =>
      match t.place pa with
      | .remote _ =>
        if t.lineBusy (coreOf c) pa then again t
        else .hold ((t.send x.region (x.level == .user) false pa (.lacRound x.rm)).enterToken c (coreOf c) pa x.region)
          (.remote ⟨d, va, 3, pa, 48, [], [], .lacr x.rm, false⟩)
      | .hbm | .pad _ _ | .store _ _ | .mmio | .host | .hole =>
        match (t.forget (coreOf c) pa 48).reach (coreOf c) (some (.ctx c)) false pa 48 with
        | (t1, false) => again t1
        | (t1, true) => .busy (t1.deliver c x d (.lacr x.rm) (memRead t1.mem (localOf pa) 48)) .reply)) s

end Sys2Proof.Machine
end

