-- ==== Sys2Proof/Machine/Tile.lean ====
section
/-! DEFINITION. Tile headers and buffers (chapter 03; element formats of chapter 02): fields, geometry, the check code, the header tests
of R73, element values and scales, the guard tags, buffer states and seals. A header is 256 bits, byte 0 lowest; a tile is the number that its bytes
from the header on hold. -/
namespace Sys2Proof.Machine

/-- MAGIC (03 R61). -/
def hMagic (h : BitVec 256) : Nat := field h 15 0
/-- VERSION. -/
def hVersion (h : BitVec 256) : Nat := field h 23 16
/-- STATE. -/
def hState (h : BitVec 256) : Nat := field h 31 24
/-- EFMT. -/
def hEfmt (h : BitVec 256) : Nat := field h 39 32
/-- SLAYOUT. -/
def hSlayout (h : BitVec 256) : Nat := field h 47 40
/-- SFMT. -/
def hSfmt (h : BitVec 256) : Nat := field h 55 48
/-- SPARSE. -/
def hSparse (h : BitVec 256) : Nat := field h 63 56
/-- ROWS. -/
def hRows (h : BitVec 256) : Nat := field h 79 64
/-- COLS. -/
def hCols (h : BitVec 256) : Nat := field h 95 80
/-- LAYOUT. -/
def hLayout (h : BitVec 256) : Nat := field h 103 96
/-- FLAGS (03 R62). -/
def hFlags (h : BitVec 256) : Nat := field h 111 104
/-- FLAGS.MASK. -/
def hMasked (h : BitVec 256) : Bool := h.getLsbD 104
/-- FLAGS.TVIEW. -/
def hTview (h : BitVec 256) : Bool := h.getLsbD 108
/-- BODY, in bytes. -/
def hBody (h : BitVec 256) : Nat := 32 * field h 127 112
/-- SCALE, in bytes. -/
def hScale (h : BitVec 256) : Nat := 32 * field h 143 128
/-- META, in bytes. -/
def hMeta (h : BitVec 256) : Nat := 32 * field h 159 144
/-- MASK section, in bytes. -/
def hMask (h : BitVec 256) : Nat := 32 * field h 175 160
/-- FILL. -/
def hFill (h : BitVec 256) : Nat := field h 191 176

/-- An element format (02 R37, R40, R42). -/
inductive Elem where
  | float (f : Fmt)
  | int (w : Nat) (signed : Bool)
  | bx (m : Nat)
  deriving DecidableEq, Repr

/-- The format of an EFMT code (03 R73 step 3). -/
def elemOf (c : Nat) : Option Elem :=
  match c with
  | 0x01 => some (.float fp32)
  | 0x02 => some (.float bf16)
  | 0x03 => some (.float fp16)
  | 0x04 => some (.float e4m3)
  | 0x05 => some (.float e5m2)
  | 0x07 => some (.float fp4)
  | 0x08 => some (.int 8 true)
  | 0x09 => some (.int 8 false)
  | 0x0A => some (.int 4 true)
  | 0x20 => some (.float fp64)
  | 0x30 => some (.int 32 true)
  | c => if 0x10 ≤ c && c ≤ 0x16 then some (.bx (c - 0x10 + 2)) else none

/-- Element width in bits; the mantissa's for BX. -/
def Elem.width (e : Elem) : Nat := match e with | .float f => f.width | .int w _ => w | .bx m => m
/-- Whether the format is BX. -/
def Elem.isBx (e : Elem) : Bool := match e with | .bx _ => true | .float _ => false | .int _ _ => false
/-- Format of a header; a code that is none reads as FP32 and never passes R73. -/
def hElem (h : BitVec 256) : Elem := (elemOf (hEfmt h)).getD (.float fp32)

/-- The check code of R71 over bytes, from a value on. -/
def crcFrom (crc : Nat) : List Nat → Nat
  | [] => crc
  | b :: l =>
    let x := crc ^^^ (b <<< 8)
    crcFrom ((List.range 8).foldl (fun c _ => if c.testBit 15 then ((c <<< 1) ^^^ 0x1021) % 65536 else (c <<< 1) % 65536) x) l

/-- CHECK of a header (03 R71): STATE and OWNER count as zero. -/
def hCheck (h : BitVec 256) : Nat :=
  crcFrom 0xFFFF ((List.range 30).map (fun i => if i == 3 || (24 ≤ i && i ≤ 27) then 0 else field h (8 * i + 7) (8 * i)))

/-- The header with its CHECK (03 R72). -/
def hSeal (h : BitVec 256) : BitVec 256 := setField h 255 240 (hCheck h)

/-- Lines of the body, and elements of a line (03 R63). -/
def hLines (h : BitVec 256) : Nat := if hLayout h = 1 then hCols h else hRows h
/-- Elements of a line. -/
def hLineLen (h : BitVec 256) : Nat := if hLayout h = 1 then hRows h else hCols h
/-- Rounded up to 32 bytes. -/
def up32 (n : Nat) : Nat := 32 * ceilDiv n 32
/-- Payload of a line in bits (03 R64). -/
def hLineBits (h : BitVec 256) : Nat :=
  let n := hLineLen h
  match hElem h, hSparse h with
  | .bx m, _ => ceilDiv n 32 * (32 * m + 8)
  | e, 1 => n / 2 * e.width
  | e, 2 => n / 4 * e.width
  | e, _ => n * e.width
/-- Line stride LS in bytes. -/
def hStride (h : BitVec 256) : Nat := 32 * ceilDiv (hLineBits h) 256
/-- Columns of the brick grid (03 R66). -/
def hBrickCols (h : BitVec 256) : Nat := ceilDiv (hCols h) 16
/-- Bricks. -/
def hBricks (h : BitVec 256) : Nat := ceilDiv (hRows h) 16 * hBrickCols h
/-- Bytes of a brick. -/
def hBrickBytes (h : BitVec 256) : Nat := 32 * (hElem h).width
/-- Bytes of the body. -/
def hBodyBytes (h : BitVec 256) : Nat := if hLayout h = 2 then hBricks h * hBrickBytes h else hLines h * hStride h
/-- Stride of a metadata line (03 R65). -/
def hMetaStride (h : BitVec 256) : Nat := 32 * ceilDiv (hLineLen h / (if hSparse h = 1 then 2 else 4) * 2) 256
/-- Bytes of META (03 R65 to R67). -/
def hMetaBytes (h : BitVec 256) : Nat :=
  match hSparse h with
  | 1 => hLines h * hMetaStride h
  | 2 => hLines h * hMetaStride h
  | 3 => up32 (2 * (hBricks h + 1))
  | 4 => up32 (ceilDiv (hBricks h) 8)
  | _ => 0
/-- Number of scales (02 R45; 03 R68). -/
def hScales (h : BitVec 256) : Nat :=
  match hSlayout h with
  | 1 => 1
  | 2 => hRows h
  | 3 => hCols h
  | 4 => hLines h * ceilDiv (hLineLen h) 32
  | 5 => hLines h * ceilDiv (hLineLen h) 16
  | _ => 0
/-- Bytes of a scale (02 R46). -/
def hScaleSize (h : BitVec 256) : Nat := if hSfmt h = 3 then 4 else 1
/-- Bytes of SCALE. -/
def hScaleBytes (h : BitVec 256) : Nat := up32 (hScales h * hScaleSize h)
/-- Bytes of MASK. -/
def hMaskBytes (h : BitVec 256) : Nat := if hMasked h then 32 else 0

/-- Sections as (offset, bytes), the header first; an absent one has no bytes. -/
def hSections (h : BitVec 256) : List (Nat × Nat) :=
  [(0, 32), (hBody h, hBodyBytes h), (hScale h, hScaleBytes h), (hMeta h, hMetaBytes h), (hMask h, hMaskBytes h)]
/-- The buffer's extent in bytes (03 R70). -/
def hExtent (h : BitVec 256) : Nat := (hSections h).foldl (fun n q => if q.2 = 0 then n else Nat.max n (q.1 + q.2)) 32

/-- No two of the sections overlap. -/
def apart : List (Nat × Nat) → Bool
  | [] => true
  | (a, n) :: l => l.all (fun q => n == 0 || q.2 == 0 || a + n ≤ q.1 || q.1 + q.2 ≤ a) && apart l

/-- R73 step 1. -/
def hdrPlain (h : BitVec 256) : Bool :=
  hMagic h == 0x4A37 && hVersion h == 1 && field h 239 224 == 0 && field h 111 109 == 0 && field h 255 240 == hCheck h

/-- R73 steps 3 and 4; FP64 for swarm instructions only. -/
def hdrSupported (swarm : Bool) (h : BitVec 256) : Bool :=
  match elemOf (hEfmt h) with
  | none => false
  | some e =>
    (swarm || e != .float fp64) &&
    hLayout h ≤ 2 && hSparse h ≤ 4 && 1 ≤ hRows h && hRows h ≤ 256 && 1 ≤ hCols h && hCols h ≤ 256 &&
    hSlayout h ≤ 5 && hSfmt h ≤ 3 && ((hSlayout h == 0) == (hSfmt h == 0)) &&
    !(4 ≤ hSlayout h && hLayout h == 2) &&
    !(e.isBx && (hLayout h == 2 || hSparse h == 1 || hSparse h == 2 || hSparse h == 3)) &&
    !((hSparse h == 1 || hSparse h == 2) && (hLayout h == 2 || hLineLen h % 4 != 0)) &&
    !(hSparse h == 3 && hLayout h != 2)

/-- R73 step 5: the placement of R70 for a header at an offset of a scratchpad. -/
def hdrPlaced (off : Nat) (h : BitVec 256) : Bool :=
  32 ≤ hBody h && apart (hSections h) &&
  ((hScaleBytes h == 0) == (hScale h == 0)) && ((hMetaBytes h == 0) == (hMeta h == 0)) && ((hMaskBytes h == 0) == (hMask h == 0)) &&
  off + hExtent h ≤ Config.padSize

/-- The tests of R73 other than that of STATE: the fault's code. -/
def hdrFault (swarm : Bool) (off : Nat) (h : BitVec 256) : Option Code :=
  if !hdrPlain h then some .hdrCheck
  else if !hdrSupported swarm h then some .hdrUnsup
  else if !hdrPlaced off h then some .hdrUnsup
  else none

/-- The header at an address of this device. -/
def State.hdrAt (s : State) (a : Nat) : BitVec 256 := BitVec.ofNat 256 (s.peek a 32)
/-- A header written. -/
def State.pokeHdr (s : State) (a : Nat) (h : BitVec 256) : State := s.poke a (leBytes 32 h.toNat)

/-- n guard tags from a granule on. -/
def guardRun : Nat → Nat → BitVec 2 → SMap (BitVec 2)
  | 0, _, _ => []
  | n + 1, g, t => (g, t) :: guardRun n (g + 1) t

/-- Granules g to g + n - 1 tagged (03 R74). -/
def setGuards (m : SMap (BitVec 2)) (g n : Nat) (t : BitVec 2) : SMap (BitVec 2) :=
  m.filter (fun e => e.1 < g) ++ (if t = 0 then [] else guardRun n g t) ++ m.filter (fun e => g + n ≤ e.1)

/-- First granule and number of granules of an extent. -/
def granules (off extent : Nat) : Nat × Nat := (off / 256, (off + extent - 1) / 256 + 1 - off / 256)

/-- Whether every granule of an extent is NONE. -/
def Cluster.granulesFree (cl : Cluster) (off extent : Nat) : Bool :=
  let g := granules off extent
  cl.guards.all (fun e => e.1 < g.1 || g.1 + g.2 ≤ e.1)

/-- An extent tagged with one tag. -/
def Cluster.tagAll (cl : Cluster) (off extent : Nat) (t : BitVec 2) : Cluster :=
  let g := granules off extent
  { cl with guards := setGuards cl.guards g.1 g.2 t }

/-- An extent tagged HEAD and OPEN. -/
def Cluster.tagOpen (cl : Cluster) (off extent : Nat) : Cluster :=
  let c := cl.tagAll off extent 2
  { c with guards := c.guards.insert (off / 256) 1 }

/-- The state that an instruction naming a header sees (03 R74). -/
inductive Seen where
  | free
  | opened
  | result
  | inside
  | closed
  deriving DecidableEq, Repr

/-- The state seen at a scratchpad offset. -/
def State.seen (s : State) (k off : Nat) : Seen :=
  match (s.cluster k).guard (off / 256) with
  | 0 => .free
  | 1 => if hState (s.hdrAt (padAddr k off)) = 4 then .result else .opened
  | 2 => .inside
  | _ => .closed

/-- A mask with bit i set, and whether it was clear. -/
def setMaskBit (m i : Nat) : Nat × Bool := if m.testBit i then (m, false) else (m + 2 ^ i, true)

/-- The c lowest clear bits of the first `rows` set: the mask, and how many were set (03 R69). -/
def fillMask (m rows : Nat) : Nat → Nat → Nat × Nat
  | 0, _ => (m, 0)
  | _, 0 => (m, 0)
  | c + 1, fuel + 1 =>
    match (List.range rows).find? (fun i => !m.testBit i) with
    | some i => let r := fillMask (m + 2 ^ i) rows c fuel; (r.1, r.2 + 1)
    | none => (m, 0)

/-- FILL, mask and CHECK of an OPEN buffer after `rows`: one row index (TROW) or a count (TFILL) (03 R69). -/
def State.countRows (s : State) (k off : Nat) (row : Option Nat) (c : Nat) (remote : Bool) : State :=
  let a := padAddr k off
  let h := s.hdrAt a
  let mark := fun (t : State) (n : Nat) =>
    let h1 := setField h 191 176 (hFill h + n)
    let h2 := if remote then setField h1 106 106 1 else h1
    t.pokeHdr a (hSeal h2)
  if hMasked h then
    let m := s.peek (a + hMask h) 32
    match row with
    | some i => let r := setMaskBit m i; mark (s.poke (a + hMask h) (leBytes 32 r.1)) (if r.2 then 1 else 0)
    | none => let r := fillMask m (hRows h) c 256; mark (s.poke (a + hMask h) (leBytes 32 r.1)) r.2
  else mark s (Nat.min (hFill h + (match row with | some _ => 1 | none => c)) (hRows h) - hFill h)

/-- The status word of a tile instruction: status and FILL (07 R163 to R166). -/
def State.tileStatus (s : State) (k off st : Nat) : Word := word (st + 256 * s.fillAt k off)

/-- Timers of a cluster without that of a buffer (03 R75). -/
def Cluster.disarm (cl : Cluster) (off : Nat) : Cluster := { cl with timers := cl.timers.filter (fun t => t.hdr != off) }

/-- The seal step for one request (03 R75, R77): the state after, and whether the buffer was sealed and posted. -/
def State.sealStep (s : State) (k : Nat) (u : MxUnit) (off : Nat) (sealer : Nat) (timer : Bool) : State × Bool :=
  let ok := match s.seen k off with
    | .opened => true
    | .result => !timer
    | .free | .inside | .closed => false
  if !ok then (s, false)
  else
    let a := padAddr k off
    let h := s.hdrAt a
    let h1 := setField (setField h 31 24 2) 223 192 (sealer * 65536 + MxUnit.toNat u)
    let h2 := if timer then hSeal (setField h1 105 105 1) else h1
    let cl := ((s.cluster k).tagAll off (hExtent h) 3).disarm off
    let m := cl.mx u
    ((s.setCluster k (cl.setMx u { m with shelf := m.shelf ++ [off] })).pokeHdr a h2, true)

/-- Whether a CSTORE is still writing the buffer at an offset: steps at its header are held (10 R241). -/
def State.storing (s : State) (k off : Nat) : Bool :=
  let busy := fun (m : Mx) => m.flight.any (fun f => match f.result with
    | .store o _ _ _ => o == off
    | .acc _ _ | .slot _ _ | .nothing => false)
  busy (s.mx k .mx0) || busy (s.mx k .mx1)

/-- Whether a write that another device has tested here, and has not made or given up, touches n bytes of a scratchpad: a step that would guard them is
held (03 R76; entry 63). -/
def State.promised (s : State) (k off n : Nat) : Bool :=
  s.io.promises.any (fun p => p.addr < padAddr k off + n && padAddr k off < p.addr + p.len)

/-- Whether one touches the buffer at an offset, all of which its seal would guard. -/
def State.sealPromised (s : State) (k off : Nat) : Bool := s.promised k off (hExtent (s.hdrAt (padAddr k off)))

/-- Handles that a hold shelf has room for (01 R34). -/
def shelfSize : Nat := 32

/-- GIVE's step (03 R75): the buffer is SEALED again and its handle posted on the other shelf. -/
def State.giveStep (s : State) (k : Nat) (u : MxUnit) (off : Nat) : State :=
  let a := padAddr k off
  let h := s.hdrAt a
  let m := s.mx k u
  (s.setMx k u { m with shelf := m.shelf ++ [off] }).pokeHdr a
    (setField (setField h 31 24 2) 207 192 (MxUnit.toNat u))

/-- A request is served (03 R77, 07 R166, 10 R235). -/
def State.serve (s : State) (k : Nat) (u : MxUnit) (q : SealReq) : State :=
  match q.who with
  | .context c =>
    let r := s.sealStep k u q.hdr c false
    (match r.1.ctx? c with
     | some x =>
       match x.st with
       | .waiting (.sealing d _ _) => (r.1.writeReg c d (r.1.tileStatus k q.hdr (if r.2 then 0 else 4))).wake c
       | _ => r.1
     | none => r.1)
  | .timer opener =>
    let r := s.sealStep k u q.hdr opener true
    let t := r.1.setCluster k ((r.1.cluster k).disarm q.hdr)
    if r.2 then t.count (.cluster k) 11 1 else t
  | .unit v => (s.giveStep k u q.hdr).setMx k v { (s.giveStep k u q.hdr).mx k v with giving := some true }

/-- The place of a request among those that reach a pending queue in the same s-cycle (12 R291): a GIVE, timers by header offset, SEALs by
CTXID. -/
def SealReq.place (q : SealReq) : Nat × Nat :=
  match q.who with
  | .unit _ => (0, 0)
  | .timer _ => (1, q.hdr)
  | .context c => (2, c)

/-- A request joins a pending queue (03 R77; 12 R291). -/
def joinQueue (q : SealReq) : List SealReq → List SealReq
  | [] => [q]
  | r :: l =>
    if r.since = q.since && (q.place.1 < r.place.1 || (q.place.1 == r.place.1 && q.place.2 < r.place.2)) then q :: r :: l
    else r :: joinQueue q l

/-- A request put into a shelf's pending queue. -/
def State.queueSeal (s : State) (k : Nat) (u : MxUnit) (hdr : Nat) (who : SealBy) : State :=
  s.setMx k u { s.mx k u with queue := joinQueue ⟨hdr, who, s.now⟩ (s.mx k u).queue }

/-- Whether a shelf serves a request at once: it has room, and nothing waits. -/
def Mx.servesNow (m : Mx) : Bool := m.shelf.length < shelfSize && m.queue.isEmpty

/-- A seal request made (03 R77): served at once when the shelf has room and nothing waits, else queued. -/
def State.requestSeal (s : State) (k : Nat) (u : MxUnit) (hdr : Nat) (who : SealBy) : State × Bool :=
  if (s.mx k u).servesNow && !s.sealPromised k hdr then (s.serve k u ⟨hdr, who, s.now⟩, true) else (s.queueSeal k u hdr who, false)

/-- Whether a shelf accepts handles (07 R167). -/
def Mx.accepts (m : Mx) : Bool := match m.st with | .run => true | .faulted => true | .off => false | .halted => false

/-- The number that n bytes of a tile from an offset hold. -/
def tileNat (t off n : Nat) : Nat := (t >>> (8 * off)) % 2 ^ (8 * n)
/-- The code of w bits at a bit address of a tile. -/
def tileBits (t bit w : Nat) : Nat := (t >>> bit) % 2 ^ w

/-- The value of a code in a format that is not BX. -/
def Elem.value (e : Elem) (x : Nat) : XVal :=
  match e with
  | .float f => f.decode x
  | .int w signed => XVal.ofInt (if signed then (BitVec.ofNat w x).toInt else (x : Int))
  | .bx _ => .nan

/-- Line and position of element (i, j) (03 R63). -/
def hPlace (h : BitVec 256) (i j : Nat) : Nat × Nat := if hLayout h = 1 then (j, i) else (i, j)
/-- Brick of element (i, j) (03 R66). -/
def hBrick (h : BitVec 256) (i j : Nat) : Nat := i / 16 * hBrickCols h + j / 16

/-- The place in the body of brick t under a skip list, or none when it reads as zero (03 R66): (skip, run) pairs from byte `o`. -/
def skipFind (t : Nat) (tile : Nat) : Nat → Nat → Nat → Nat → Option Nat
  | 0, _, _, _ => none
  | fuel + 1, o, brick, kept =>
    let skip := tileNat tile o 1
    let run := tileNat tile (o + 1) 1
    if skip = 0 && run = 0 then none
    else if t < brick + skip then none
    else if t < brick + skip + run then some (kept + (t - brick - skip))
    else skipFind t tile fuel (o + 2) (brick + skip + run) (kept + run)

/-- Bit address in the tile of a dense element of width w, or none when its brick reads as zero. -/
def hBitAddr (h : BitVec 256) (tile i j : Nat) : Option Nat :=
  let w := (hElem h).width
  let p := hPlace h i j
  if hLayout h = 2 then
    let t := hBrick h i j
    let at_ := fun b => some (8 * (hBody h + b * hBrickBytes h) + w * (i % 16 * 16 + j % 16))
    if hSparse h = 3 then (skipFind t tile (hBricks h + 1) (hMeta h) 0 0).bind at_ else at_ t
  else some (8 * (hBody h + p.1 * hStride h) + w * p.2)

/-- Whether a block mask keeps element (i, j) (03 R67). -/
def hKept (h : BitVec 256) (tile i j : Nat) : Bool := hSparse h != 4 || tile.testBit (8 * hMeta h + hBrick h i j)

/-- A positive zero. -/
def plusZero : XVal := .fin false 0 0

/-- The places in its line of the kept values that name element (i, j) under structured sparsity (03 R65). -/
def hNamed (h : BitVec 256) (tile i j : Nat) : List Nat :=
  let p := hPlace h i j
  let per := if hSparse h = 1 then 2 else 1
  ((List.range per).map (fun r => per * (p.2 / 4) + r)).filter
    (fun t => tileBits tile (8 * (hMeta h + p.1 * hMetaStride h) + 2 * t) 2 == p.2 % 4)

/-- The stored values of element (i, j): one, or for structured sparsity every kept value of its group that names it (03 R65). -/
def hValues (h : BitVec 256) (tile i j : Nat) : List XVal :=
  let e := hElem h
  let w := e.width
  let p := hPlace h i j
  if !hKept h tile i j then [plusZero]
  else match e with
    | .bx m =>
      let base := hBody h + p.1 * hStride h
      let nb := ceilDiv (hLineLen h) 32
      [bxValue m (tileBits tile (8 * (base + p.2 / 32 * (4 * m)) + m * (p.2 % 32)) m) (tileNat tile (base + nb * (4 * m) + p.2 / 32) 1)]
    | .float _ | .int _ _ =>
      if hSparse h = 1 || hSparse h = 2 then
        let vs := (hNamed h tile i j).map (fun t => e.value (tileBits tile (8 * (hBody h + p.1 * hStride h) + w * t) w))
        if vs.isEmpty then [plusZero] else vs
      else match hBitAddr h tile i j with
        | some b => [e.value (tileBits tile b w)]
        | none => [plusZero]

/-- A scale's value (02 R46). -/
def scaleValue (sfmt x : Nat) : XVal :=
  match sfmt with
  | 1 => if x = 255 then .nan else .fin false 1 ((x : Int) - 127)
  | 2 => e4m3.decode x
  | _ => fp32.decode x

/-- The scale that covers element (i, j); 1 where there is none (03 R68). -/
def hScaleOf (h : BitVec 256) (tile i j : Nat) : XVal :=
  let p := hPlace h i j
  let n := match hSlayout h with
    | 2 => i
    | 3 => j
    | 4 => p.1 * ceilDiv (hLineLen h) 32 + p.2 / 32
    | 5 => p.1 * ceilDiv (hLineLen h) 16 + p.2 / 16
    | _ => 0
  if hSlayout h = 0 then .fin false 1 0 else scaleValue (hSfmt h) (tileNat tile (hScale h + n * hScaleSize h) (hScaleSize h))

/-- Whether stored row i is valid (03 R69). -/
def hValid (h : BitVec 256) (mask : Nat) (i : Nat) : Bool := !hMasked h || mask.testBit i

end Sys2Proof.Machine
end

