-- ==== Sys2Proof/Machine/TileOps.lean ====
section
/-! DEFINITION. The TILE instructions (07 R161 to R170) and the events of seal timers and hold shelves (03 R77, R78). -/
namespace Sys2Proof.Machine

/-- A fault about the buffer that an instruction names (03 R84). -/
def tileFault (k : Code) (va : Word) : FaultInfo := flt k va 3

/-- Where a tile instruction's buffer may lie (07 R161); `own` accepts only the crew's own scratchpad. -/
def tileWant (own : Bool) (c : Nat) (p : Place) : Bool :=
  match p with
  | .pad k _ => !own || k == clusterOf c
  | .remote _ => !own
  | .hbm | .store _ _ | .mmio | .host | .hole => false

/-- A buffer found (07 R161): the local scratchpad and offset, or another device's scratchpad. `own` accepts only the crew's own. -/
def tileFind (own : Bool) (va : Word) (c : Nat) (x : Ctx) (s : State) (here : Nat → Nat → State → Exec) (away : Nat → State → Exec) : Exec :=
  if va.toNat % 256 != 0 then .trap s (flt .align va 0 1)
  else match s.xlate (s.whoOf c x) Need.put (tileWant own c) va with
    | (s1, .fault f) => .trap s1 f
    | (s1, .held) => again s1
    | (s1, .ok pa) =>
      match s1.place pa with
      | .pad k off =>
        match (s1.bad.find? (fun g => padAddr k off / 8 ≤ g && g ≤ (padAddr k off + 31) / 8)) with
        | some g => .trap s1 (flt .eccUncorr (va + word (8 * g - padAddr k off)) 0 1)
        | none => here k off s1
      | .hbm | .store _ _ | .mmio | .host | .hole | .remote _ =>
        match placeLocal (localOf pa) with
        | .pad _ _ => away pa s1
        | .hbm | .store _ _ | .mmio | .host | .hole | .remote _ =>
          .trap (s1.forgetProt (s1.whoOf c x) (flt .xlateProt va 6 1)) (flt .xlateProt va 6 1)

/-- The end of a tile instruction with a status. -/
def tileDone (d : Reg) (k off st : Nat) (x : Ctx) (s : State) : Exec := .busy (s.setReg x d (s.tileStatus k off st)) .reply

/-- The operand of TOPEN: delay and shelf, or BOUNDS (07 R162). -/
def topenDelay (v : Word) : Option (Nat × MxUnit) :=
  if v.getLsbD 31 || field v 63 33 != 0 then none else some (field v 30 0, MxUnit.ofNat (field v 32 32))

/-- Whether the seal timers of a cluster stand still: its crew is frozen (13 R315), or it quiesces for a pre-emption (R319). -/
def State.timersHeld (s : State) (k : Nat) : Bool := (s.cluster k).frozen || s.quiescing k

/-- The step of TOPEN (07 R162): the status word's code, or a fault. -/
def State.openStep (s : State) (k off delay : Nat) (u : MxUnit) (opener : Nat) : Except Code (State × Nat) :=
  let a := padAddr k off
  let h := s.hdrAt a
  let cl := s.cluster k
  if !cl.granulesFree off (hExtent h) then .error .shelfState
  else if delay != 0 && 64 ≤ cl.timers.length then .ok (s, 5)
  else
    let dl := if delay = 0 then 0 else deadlineAt (s.cycleOf (dieOfCluster k)) delay
    let h1 := setField (setField (setField h 31 24 1) 191 176 0) 107 105 0
    let h2 := hSeal (setField h1 223 192 dl.toNat)
    let s1 := if hMasked h then s.poke (a + hMask h) (List.replicate 32 0) else s
    let cl1 := cl.tagOpen off (hExtent h)
    let cl2 := if delay = 0 then cl1 else { cl1 with timers := cl1.timers ++ [⟨off, dl, u, opener, if s.timersHeld k then some delay else none⟩] }
    .ok ((s1.setCluster k cl2).pokeHdr a h2, 0)

/-- TOPEN (07 R162). -/
def execTopen (d a b : Reg) (s : State) : Host.Outcome State Fault Refusal :=
  runSwarm (.topen d a b) [6] false [a, b] (fun c x s =>
    match topenDelay (s.reg x b) with
    | none => .trap s (flt .bounds (s.reg x b))
    | some (delay, u) =>
      let va := s.reg x a
      tileFind true va c x s (fun k off t =>
        match hdrFault true off (t.hdrAt (padAddr k off)) with
        | some e => .trap t (tileFault e va)
        | none =>
          if t.promised k off 32 then again t else
          match t.openStep k off delay u c with
          | .error e => .trap t (tileFault e va)
          | .ok (t1, st) => .busy (t1.setReg x d (word st)) .reply) (fun _ t => .trap t (flt .xlateProt va 6 1))) s

/-- What the first step of TROW and TELM decides from the state seen and the header (07 R163, R164). -/
inductive FirstStep where
  | sealed
  | fault (f : FaultInfo)
  | go
  deriving DecidableEq, Repr

/-- The state test of a first step. -/
def firstSeen (seen : Seen) (va : Word) (k : FirstStep) : FirstStep :=
  match seen with
  | .free => .fault (tileFault .shelfState va)
  | .result => .fault (tileFault .shelfState va)
  | .inside => .fault (tileFault .shelfState va)
  | .closed => .sealed
  | .opened => k

/-- First step of TROW (07 R163). -/
def trowFirst (seen : Seen) (h : BitVec 256) (va rc : Word) : FirstStep :=
  firstSeen seen va
    (if hLayout h != 0 || (hSparse h != 0 && hSparse h != 4) then .fault (tileFault .hdrUnsup va)
     else if hRows h ≤ rc.toNat then .fault (flt .bounds rc) else .go)

/-- First step of TELM (07 R164). -/
def telmFirst (seen : Seen) (h : BitVec 256) (va rc : Word) : FirstStep :=
  firstSeen seen va
    (if (hElem h).isBx || (hSparse h != 0 && hSparse h != 4) then .fault (tileFault .hdrUnsup va)
     else if hRows h ≤ field rc 31 16 || hCols h ≤ field rc 15 0 then .fault (flt .bounds rc) else .go)

/-- The source read of TROW and the wait for its second step. -/
def trowSource (d : Reg) (h : BitVec 256) (va src : Word) (row pa : Nat) (c : Nat) (x : Ctx) (s : State) : Exec :=
  match s.readBytes c x src (ceilDiv (hLineBits h) 8) with
  | .error e => e
  | .ok (s1, bs) => .hold s1 (.row ⟨d, va, pa, row, true, 0, 8 * bs.length, hBody h + row * hStride h, bs⟩)

/-- The wait of TELM for its second step. -/
def telmSource (d : Reg) (h : BitVec 256) (va rc v : Word) (pa : Nat) (s : State) : Exec :=
  let i := field rc 31 16
  let j := field rc 15 0
  let w := (hElem h).width
  let bit := (hBitAddr h 0 i j).getD 0
  .hold s (.row ⟨d, va, pa, i * 65536 + j, false, bit % 8, w, bit / 8, leBytes (ceilDiv (bit % 8 + w) 8) (v.toNat % 2 ^ w * 2 ^ (bit % 8))⟩)

/-- The end of a first step that finds the buffer sealed: bytes 23:22 at the address. -/
def sealedWord (h : BitVec 256) : Word := word (4 + 256 * hFill h)

/-- TROW (07 R163): its first step, and its source. -/
def execTrow (d a b rc : Reg) (s : State) : Host.Outcome State Fault Refusal :=
  runSwarm (.trow d a b rc) [6] false [a, b, rc] (fun c x s =>
    let va := s.reg x a
    let src := s.reg x b
    let i := s.reg x rc
    if field i 63 8 != 0 then .trap s (flt .bounds i)
    else tileFind false va c x s (fun k off t =>
        let h := t.hdrAt (padAddr k off)
        match trowFirst (t.seen k off) h va i with
        | .sealed => tileDone d k off 4 x t
        | .fault f => .trap t f
        | .go => trowSource d h va src i.toNat (s.ctl.devid * Config.localEnd + padAddr k off) c x t)
      (fun pa t => .hold (t.send x.region (x.level == .user) false pa .head)
        (.remote ⟨d, va, 1, pa, 64, [], [], .row src i.toNat, false⟩))) s

/-- TELM (07 R164): its first step. -/
def execTelm (d a b rc : Reg) (s : State) : Host.Outcome State Fault Refusal :=
  runSwarm (.telm d a b rc) [6] false [a, b, rc] (fun c x s =>
    let va := s.reg x a
    let v := s.reg x b
    let p := s.reg x rc
    if field p 63 32 != 0 then .trap s (flt .bounds p)
    else tileFind false va c x s (fun k off t =>
        let h := t.hdrAt (padAddr k off)
        match telmFirst (t.seen k off) h va p with
        | .sealed => tileDone d k off 4 x t
        | .fault f => .trap t f
        | .go => telmSource d h va p v (s.ctl.devid * Config.localEnd + padAddr k off) t)
      (fun pa t => .hold (t.send x.region (x.level == .user) false pa .head)
        (.remote ⟨d, va, 1, pa, 64, [], [], .elm (field p 31 16) (field p 15 0) v, false⟩))) s

/-- The state seen that a reply of another device names (entry 28). -/
def seenOf (n : Nat) : Seen :=
  match n with
  | 0 => .free
  | 1 => .opened
  | 2 => .result
  | 3 => .inside
  | _ => .closed
/-- Its code. -/
def Seen.code (n : Seen) : Nat :=
  match n with
  | .free => 0
  | .opened => 1
  | .result => 2
  | .inside => 3
  | .closed => 4

/-- The reply of another device to the first step of TROW: header and state seen. -/
def trowReply (d : Reg) (va src : Word) (i pa : Nat) (bs : List Byte) (c : Nat) (x : Ctx) (s : State) : Exec :=
  let h := BitVec.ofNat 256 (leNat (bs.take 32))
  match trowFirst (seenOf (leNat ((bs.drop 32).take 1))) h va (word i) with
  | .sealed => .busy (s.setReg x d (sealedWord h)) .reply
  | .fault f => .trap s f
  | .go => trowSource d h va src i pa c x s

/-- The same for TELM. -/
def telmReply (d : Reg) (va : Word) (i j : Nat) (v : Word) (pa : Nat) (bs : List Byte) (x : Ctx) (s : State) : Exec :=
  let h := BitVec.ofNat 256 (leNat (bs.take 32))
  let rc := word (i * 65536 + j)
  match telmFirst (seenOf (leNat ((bs.drop 32).take 1))) h va rc with
  | .sealed => .busy (s.setReg x d (sealedWord h)) .reply
  | .fault f => .trap s f
  | .go => telmSource d h va rc v pa s

/-- Bytes with w bits from bit `sh` replaced by those of `new`. -/
def mergeBits (old new : List Byte) (sh w : Nat) : List Byte :=
  let o := leNat old
  leBytes old.length (setBits o (sh + w - 1) sh (leNat new >>> sh))

/-- The second step of TROW and TELM at a local buffer (07 R163, R164): the state and status, or a fault. -/
def State.rowStep (s : State) (k off : Nat) (r : RowStep) : Except FaultInfo (State × Nat) :=
  let a := padAddr k off
  if badIn s.bad a 32 then .error (flt .eccUncorr r.hdrVa 0 1)
  else match s.seen k off with
  | .closed => .ok (s, 4)
  | .free => .error (tileFault .shelfState r.hdrVa)
  | .result => .error (tileFault .shelfState r.hdrVa)
  | .inside => .error (tileFault .shelfState r.hdrVa)
  | .opened =>
    let n := Nat.min r.data.length (hExtent (s.hdrAt a) - r.off)
    match badPartial s.bad (a + r.off) n with
    | some g => .error (flt .eccUncorr (r.hdrVa + word (8 * g - a)) 0 1)
    | none =>
      if r.setMask then .ok ((s.poke (a + r.off) (r.data.take n)).countRows k off (some r.row) 0 false, 0)
      else if n < r.data.length then .ok (s, 0)
      else .ok (s.poke (a + r.off) (mergeBits (memRead s.mem (a + r.off) n) r.data r.shift r.width), 0)

/-- The second step of TROW and TELM for a context. The peer tests were made at the first step and are not made again.
DEDUCED (entry 68); unsafe. -/
def rowSecond (r : RowStep) (x : Ctx) (s : State) : Exec :=
  match s.place r.pa with
  | .pad k off =>
    match s.rowStep k off r with
    | .ok (s1, st) => .ok (s1.setReg x r.d (s1.tileStatus k off st))
    | .error f => .trap s f
  | .hbm | .store _ _ | .mmio | .host | .hole | .remote _ =>
    let k : DxlKind := if r.setMask then .trow r.row r.off r.data else .telm r.shift r.width r.off r.data
    .hold (s.send x.region (x.level == .user) false r.pa k) (.remote ⟨r.d, r.hdrVa, 1, r.pa, 8, [], [], .status, false⟩)

/-- The narrowest scope that contains a context and a buffer (07 R165). -/
def tfillScope (c k : Nat) : Scope :=
  if clusterOf c = k then .crew else if dieOfCluster (clusterOf c) = dieOfCluster k then .die else .pkg

/-- The step of TFILL (07 R165). -/
def State.fillStep (s : State) (k off n : Nat) : Except Code (State × Nat) :=
  match s.seen k off with
  | .closed => .ok (s, 4)
  | .free => .error .shelfState
  | .result => .error .shelfState
  | .inside => .error .shelfState
  | .opened => .ok (if n = 0 then s else s.countRows k off none n true, 0)

/-- TFILL (07 R165). -/
def execTfill (d a b : Reg) (s : State) : Host.Outcome State Fault Refusal :=
  runSwarm (.tfill d a b) [6] false [a, b] (fun c x s =>
    let va := s.reg x a
    let n := s.reg x b
    if 256 < n.toNat then .trap s (flt .bounds n)
    else tileFind false va c x s (fun k off t => t.releaseThen c (some (tfillScope c k)) (fun t1 =>
        match t1.fillStep k off n.toNat with
        | .error e => .trap t1 (tileFault e va)
        | .ok (t2, st) => tileDone d k off st x t2))
      (fun pa t => t.releaseThen c (some .domain) (fun t1 =>
        .hold (t1.send x.region (x.level == .user) false pa (.tfill n.toNat)) (.remote ⟨d, va, 1, pa, 8, [], [], .status, false⟩)))) s

/-- SEAL (07 R166, R167). -/
def execSeal (d a b : Reg) (s : State) : Host.Outcome State Fault Refusal :=
  runSwarm (.seal d a b) [6] false [a, b] (fun c x s =>
    let va := s.reg x a
    let n := s.reg x b
    if 1 < n.toNat then .trap s (flt .bounds n)
    else tileFind true va c x s (fun k off t => t.releaseThen c (some .crew) (fun t1 =>
        let u := MxUnit.ofNat n.toNat
        let go : Exec :=
          if !(t1.mx k u).accepts then tileDone d k off 9 x t1
          else if (t1.mx k u).servesNow then
            if t1.sealPromised k off then again t1 else
            let r := t1.sealStep k u off c false
            tileDone d k off (if r.2 then 0 else 4) x r.1
          else .busy (t1.queueSeal k u off (.context c)) (.waiting (.sealing d off u))
        match t1.seen k off with
        | .free => .trap t1 (tileFault .shelfState va)
        | .inside => .trap t1 (tileFault .shelfState va)
        | .closed => tileDone d k off 4 x t1
        | .opened => go
        | .result => if t1.storing k off then again t1 else go))
      (fun _ t => .trap t (flt .xlateProt va 6 1))) s

/-- TFREE's step (03 R75). -/
def State.freeStep (s : State) (k off : Nat) : State :=
  let a := padAddr k off
  let h := s.hdrAt a
  (s.setCluster k (((s.cluster k).tagAll off (hExtent h) 0).disarm off)).pokeHdr a (setField h 31 24 0)

/-- TFREE (07 R168). -/
def execTfree (a : Reg) (s : State) : Host.Outcome State Fault Refusal :=
  runSwarm (.tfree a) [6] false [a] (fun c x s =>
    let va := s.reg x a
    tileFind true va c x s (fun k off t =>
        match t.seen k off with
        | .opened => .busy (t.freeStep k off) .reply
        | .result => if t.storing k off then again t else .busy (t.freeStep k off) .reply
        | .free => .trap t (tileFault .shelfState va)
        | .inside => .trap t (tileFault .shelfState va)
        | .closed => .trap t (tileFault .shelfState va))
      (fun _ t => .trap t (flt .xlateProt va 6 1))) s

/-- The header that THDR reads: STATE reads as 0 where the granule is NONE (07 R169). -/
def thdrSeen (s : State) (pa : Nat) (h : BitVec 256) : BitVec 256 :=
  match s.place pa with
  | .pad k off => if off % 256 = 0 && (s.cluster k).guard (off / 256) = 0 then setField h 31 24 0 else h
  | .hbm | .store _ _ | .mmio | .host | .hole | .remote _ => h

/-- The end of THDR: the header is checked and its doubleword returned (07 R169). -/
def thdrDone (d : Reg) (n : Nat) (va : Word) (pa : Nat) (bs : List Byte) (x : Ctx) (s : State) : Exec :=
  let h0 := BitVec.ofNat 256 (leNat bs)
  let free := bs.length == 64 && leNat ((bs.drop 32).take 1) == Seen.free.code
  let h := thdrSeen s pa (if free then setField h0 31 24 0 else h0)
  let off := match placeLocal (localOf pa) with
    | .pad _ o => o
    | .hbm | .store _ _ | .mmio | .host | .hole | .remote _ => 0
  match hdrFault true off h with
  | some e => .trap s (flt e va 0)
  | none => .ok (s.setReg x d (word (field h (64 * n + 63) (64 * n))))

/-- Where a header may lie that THDR reads (07 R169). -/
def thdrWant (p : Place) : Bool :=
  match p with
  | .pad _ _ | .hbm | .store _ _ | .remote _ => true
  | .mmio | .host | .hole => false

/-- THDR (07 R169). -/
def execThdr (d a : Reg) (n : BitVec 2) (s : State) : Host.Outcome State Fault Refusal :=
  runSwarm (.thdr d a n) [6] false [a] (fun c x s =>
    let va := s.reg x a
    if va.toNat % 32 != 0 then .trap s (flt .align va)
    else match s.checkPart (s.whoOf c x) Need.load thdrWant va 32 with
      | (s1, .fault f) => .trap s1 f
      | (s1, .held) => again s1
      | (s1, .ok pa) =>
        match s1.loadPart (coreOf c) (some (.ctx c)) true pa 32 with
        | (s2, .bytes bs) =>
          match thdrDone d n.toNat va pa bs x s2 with
          | .ok s3 => .busy s3 .reply
          | e => e
        | (s2, .held) => again s2
        | (s2, .hostLine _) => again s2
        | (s2, .away) =>
          match placeLocal (localOf pa) with
          | .pad _ _ => .hold (s2.send x.region (x.level == .user) false pa .thdr) (.remote ⟨d, va, 0, pa, 64, [], [], .hdr n.toNat, false⟩)
          | .hbm | .store _ _ | .mmio | .host | .hole | .remote _ =>
            .hold (s2.send x.region (x.level == .user) false pa (.read 32)) (.remote ⟨d, va, 0, pa, 32, [], [], .hdr n.toNat, false⟩)) s

/-- Whether a deadline has been reached (03 R78). -/
def expired (cycle : Word) (t : Timer) : Bool := t.left.isNone && decide ((cycle.setWidth 32 - t.deadline).toNat < 2 ^ 31)

/-- The timer of a buffer, where it has expired and has made no request yet (03 R78). -/
def State.timerDue (s : State) (k hdr : Nat) : Option Timer :=
  let cl := s.cluster k
  (cl.timers.find? (fun t => t.hdr == hdr)).filter (fun t =>
    expired (s.cycleOf (dieOfCluster k)) t && !(cl.mx t.unit).queue.any (fun q => q.hdr == hdr && q.who == .timer t.opener))

/-- TIMER_EXPIRY (03 R78; 07 R167): an expired timer makes its seal request; one whose shelf accepts nothing is disarmed. -/
def execTimerExpiry (k hdr : Nat) (s : State) : Host.Outcome State Fault Refusal :=
  match s.timerDue k hdr with
  | none => .next s
  | some t =>
    if !((s.cluster k).mx t.unit).accepts then .next (s.setCluster k ((s.cluster k).disarm hdr))
    else .next (s.requestSeal k t.unit hdr (.timer t.opener)).1

/-- SERVE_PENDING_REQUEST (03 R77): the oldest request of a shelf with room. One that has come in this s-cycle may still have another put
before it (12 R291), and is served from the next on. -/
def execServePendingRequest (k : Nat) (u : MxUnit) (s : State) : Host.Outcome State Fault Refusal :=
  let m := s.mx k u
  match m.queue with
  | [] => .next s
  | q :: l =>
    if m.shelf.length < shelfSize && q.since < s.now && !s.storing k q.hdr && !s.sealPromised k q.hdr then
      .next ((s.setMx k u { m with queue := l }).serve k u q)
    else .next s

end Sys2Proof.Machine
end

