-- ==== Sys2Proof/Machine/MxBase.lean ====
section
/-! DEFINITION. What the ops of a matrix unit share (chapter 10): how an op runs, register reads and pending writes (R227 to R229), M ops
in flight (R230), addresses and the guard (R233), faults and notices (13 R313). -/
namespace Sys2Proof.Machine

/-- A scalar register; zero at launch (01 R34). -/
def Mx.sreg (m : Mx) (n : Reg) : Word32 := m.s.getD n.toNat 0
/-- A vector register's lanes. -/
def Mx.vlanes (m : Mx) (n : Reg) : List Word32 := m.vreg n.toNat
/-- A predicate register. -/
def Mx.preg (m : Mx) (n : BitVec 3) : BitVec 128 := m.p.getD n.toNat 0
/-- The lanes that an op acts on (09 R216, 10 R244). -/
def Mx.enabled (m : Mx) (p : Option (BitVec 3)) : BitVec 128 :=
  match p with
  | none => BitVec.allOnes 128
  | some n => m.preg n
/-- An accumulator before anything writes it: all zero bytes (01 R34). -/
def Acc.empty : Acc := ⟨0, 0, [], false⟩
/-- An accumulator register. -/
def Mx.creg (m : Mx) (n : BitVec 3) : Acc := m.c.getD n.toNat Acc.empty
/-- The scratchpad offset of an access: (sa + disp) mod 2^32 (10 R241, R243, R249, R252). -/
def Mx.offset (m : Mx) (sa : Reg) (disp : BitVec 32) : Nat := (m.sreg sa + disp).toNat

/-- A result that becomes visible L bundles after the one that issues (10 R228). -/
def State.later (s : State) (k : Nat) (u : MxUnit) (L : Nat) (r : PendReg) : State :=
  let m := s.mx k u
  s.setMx k u { m with pend := m.pend ++ [⟨m.count + L, r⟩] }

/-- An M op put in flight for D m-cycles (10 R230). -/
def State.fly (s : State) (k : Nat) (u : MxUnit) (head : Nat) (reads writes : List TileReg) (d : Nat) (r : MResult) (lost : Bool) : State :=
  let m := s.mx k u
  s.setMx k u { m with flight := m.flight ++ [⟨reads, writes, s.mnow + d, r, lost, m.line, m.bundle, head⟩] }

/-- The identity of a unit's crew for its region's fault queue. -/
def State.mxWho (s : State) (k : Nat) : Who :=
  regionWho s ((s.crewRegion? k).getD 0) ((s.crew? k).map (·.1))

/-- The 64 bytes of an MX notice (13 R313). -/
def noticeBody (k : Nat) (u : MxUnit) (line bundle count head : Nat) (lost : Bool) (f : FaultInfo) : BitVec 512 :=
  let dw0 := line % 1024 + bundle % 32 * 2 ^ 10 + MxUnit.toNat u * 2 ^ 15 + k * 2 ^ 16
  let dw4 := head % 8 + if lost then 256 else 0
  BitVec.ofNat 512 (leNat ([word dw0, trapInfo f 0, f.addr, word count, word dw4, 0, 0, 0x50].map (fun v => leBytes 8 v.toNat)).flatten)

/-- A record of a cluster enqueued on its region's fault queue (13 R311, R313): a handler bind follows where it asks for one; a full
queue, or a full FIFO of handler binds (entry 66), leaves it with the cluster controller. `unit` is the unit that holds for it. -/
def State.postRecord (s : State) (k : Nat) (r : FaultRecord) (unit : Option MxUnit) : State :=
  let keep := fun (t : State) (next : Nat) =>
    t.setCluster k { t.cluster k with notices := (t.cluster k).notices ++ [⟨r, unit, next⟩] }
  match s.crewRegion? k with
  | none => s
  | some region =>
    if r.handler && !s.handlerRoom k then keep s s.now
    else match s.faultEnq { s.mxWho k with place := some (.row (.faultQueueRetry (.notice k))) } (leBytes 64 r.body.toNat) with
    | (s1, .done pos) =>
      let s2 := s1.countRecord k
      if r.handler then s2.queueHandler k ⟨r.slot, pos, r.pc, r.info, r.addr⟩ else s2
    | (s1, .full) => keep s1 (s1.now + retryGap)
    | (s1, .held) => keep s1 s1.now
    | (s1, .unusable) => s1.queueUnusable region (some k)

/-- The record of a notice. -/
def noticeRecord (body : BitVec 512) (f : FaultInfo) : FaultRecord :=
  ⟨body, word (field body 63 0), trapInfo f 0, f.addr, none, true⟩

/-- A unit faults at its bundle (10 R233, 13 R313): it is FAULTED and its notice is posted. DEDUCED (entry 50); unsafe. -/
def State.mxFault (s : State) (k : Nat) (u : MxUnit) (head : Nat) (f : FaultInfo) : State :=
  let m := s.mx k u
  (s.setMx k u { m with st := .faulted }).postRecord k
    (noticeRecord (noticeBody k u m.line m.bundle m.count head false f) f) (some u)

/-- The v and p registers that an op reads under its predicate (09 R216). -/
def predReg (p : Option (BitVec 3)) : List MxReg := match p with | some n => [.p n.toNat] | none => []

/-- A handle register that an op names. -/
def handleReg (t : TileReg) : List MxReg := match t with | .h n => [.h n.toNat] | .b _ => [] | .c _ => []

/-- The v, p, s and h registers that an op reads (09 R219 to R221). -/
def regReads : Instr → List MxReg
  | .mma _ h t | .mmaz _ h t => .h h.toNat :: handleReg t
  | .wload _ h | .cload _ h | .give h | .hrel h => [.h h.toNat]
  | .hdrf _ t _ => handleReg t
  | .cstore _ sa _ _ _ _ _ => [.s sa.toNat]
  | .crow _ _ sb => [.s sb.toNat]
  | .cput _ v sb => [.v v.toNat, .s sb.toNat]
  | .vadd _ a b _ p | .vsub _ a b _ p | .vmul _ a b _ p | .vmax _ a b _ p | .vmin _ a b _ p => [.v a.toNat, .v b.toNat] ++ predReg p
  | .vfma _ a b c p => [.v a.toNat, .v b.toNat, .v c.toNat] ++ predReg p
  | .vabs _ a _ p => .v a.toNat :: predReg p
  | .vcmp _ a b _ _ p => [.v a.toNat, .v b.toNat] ++ predReg p
  | .vsel _ a b q p => [.v a.toNat, .v b.toNat, .p q.toNat] ++ predReg p
  | .vcvt _ a _ p | .vreds _ a _ p | .vredm _ a _ p => .v a.toNat :: predReg p
  | .xexp2 _ a p | .xlog2 _ a p | .xrcp _ a p | .xrsq _ a p | .xtanh _ a p | .xsig _ a p => .v a.toNat :: predReg p
  | .vbcast _ sa p => .s sa.toNat :: predReg p
  | .vld _ sa _ _ p => .s sa.toNat :: predReg p
  | .vst v sa _ _ p => [.v v.toNat, .s sa.toNat] ++ predReg p
  | .btopk d _ sb _ => [.s d.toNat, .s sb.toNat]
  | .sadd _ a b | .ssub _ a b | .sand _ a b | .sshl _ a b => [.s a.toNat, .s b.toNat]
  | .saddi _ a _ | .sld _ a _ => [.s a.toNat]
  | .sst d a _ => [.s d.toNat, .s a.toNat]
  | .brc d _ _ _ | .loop d _ _ | .signal d _ => [.s d.toNat]
  | _ => []

/-- The fault of an op that reads a register with an uncorrectable error (13 R317; 03 R84): it comes before the op's own checks.
DEDUCED (entry 64); unsafe. -/
def Mx.regFault (m : Mx) (i : Instr) : Option FaultInfo :=
  if (regReads i).any m.badRegs.contains then some (flt .eccUncorr 0 1) else none

/-- An MX op in the unit whose bundle issues: its checks, or its issue step, or both where it stands alone (10 R226).
DEDUCED (entry 51); unsafe. -/
def runMx (i : Instr) (check : Nat → MxUnit → State → Option FaultInfo) (perform : Nat → MxUnit → Nat → State → State) (s : State) :
    Host.Outcome State Fault Refusal :=
  match s.actor with
  | .mx k u ph head =>
    let bad := if i.wf then ((s.mx k u).regFault i).or (check k u s) else some (flt .illegal 0)
    match ph, bad with
    | .perform, _ => .next (perform k u head s)
    | _, some f => .next (s.mxFault k u head f)
    | .check, none => .next s
    | .alone, none => .next (perform k u head s)
  | .device => .fault .noUnit
  | .context _ _ => .fault .noUnit

/-- An op with no checks of its own. -/
def noCheck : Nat → MxUnit → State → Option FaultInfo := fun _ _ _ => none

/-- A fault that names an operand by its role (03 R84): 0 A, 1 B, 2 accumulator, 3 destination. -/
def roleFault (c : Code) (addr role : Nat) (acc : Nat := 0) : FaultInfo := flt c (word addr) role acc

/-- The offset of a granule of a cluster's scratchpad. -/
def granuleOff (k g : Nat) : Nat := 8 * g - padAddr k 0

/-- ECCUNCORR at the first granule of a list, if any (10 R233). -/
def eccFault (k acc : Nat) : List Nat → Option FaultInfo
  | [] => none
  | g :: _ => some (flt .eccUncorr (word (granuleOff k g)) 0 acc)

/-- Whether byte i of an access of 128 elements is one that the enabled lanes touch. -/
def laneByte (mask : BitVec 128) (size i : Nat) : Bool := i < 128 * size && mask.getLsbD (i / size)

/-- The 8 bytes of a granule that an access of enabled lanes touches, by their places in it. -/
def granuleHits (k o : Nat) (mask : BitVec 128) (size g : Nat) : List Nat :=
  (List.range 8).filter (fun j => o ≤ granuleOff k g + j && laneByte mask size (granuleOff k g + j - o))

/-- Uncorrectable granules that a read of the enabled lanes meets. -/
def State.laneReadBad (s : State) (k o : Nat) (mask : BitVec 128) (size : Nat) : List Nat :=
  s.bad.filter (fun g => padAddr k 0 ≤ 8 * g && !(granuleHits k o mask size g).isEmpty)

/-- Uncorrectable granules that a write of the enabled lanes meets and does not replace whole. -/
def State.laneWriteBad (s : State) (k o : Nat) (mask : BitVec 128) (size : Nat) : List Nat :=
  (s.laneReadBad k o mask size).filter (fun g => (granuleHits k o mask size g).length < 8)

/-- Alignment and range of an access of n bytes (10 R243, R249, R252). -/
def padCheck (o align n acc : Nat) : Option FaultInfo :=
  if o % align != 0 then some (flt .align (word o) 0 acc)
  else if Config.padSize < o + n then some (flt .bounds (word o) 0 acc)
  else none

/-- The guard's answer to a write of n bytes (03 R76). -/
def State.mxGuard (s : State) (k o n : Nat) : Option FaultInfo :=
  (guardedIn (s.cluster k) o n).map (fun b => roleFault .shelfState b 3 1)

/-- n bytes of the unit's scratchpad. -/
def State.padRead (s : State) (k o n : Nat) : List Byte := memRead s.mem (padAddr k o) n

/-- R73 for a header of the MX that must be in a state (03 R73). -/
def mxHdrFault (off st : Nat) (h : BitVec 256) : Option Code :=
  if !hdrPlain h then some .hdrCheck
  else if hState h != st then some .shelfState
  else if !hdrSupported false h then some .hdrUnsup
  else if !hdrPlaced off h then some .hdrUnsup
  else none

/-- R73 for a header that an accumulator register holds: it has no placement (01 R34, 10 R237). -/
def accHdrFault (h : BitVec 256) : Option Code :=
  if !hdrPlain h then some .hdrCheck
  else if hState h != 4 then some .shelfState
  else if !hdrSupported false h then some .hdrUnsup
  else none

/-- The checks of an accumulator register that an op reads: its header and its lost mark (10 R233, R237; entry 64). -/
def accCheck (a : Acc) : Option FaultInfo :=
  match accHdrFault a.hdr with
  | some c => some (roleFault c 0 2)
  | none => if a.lost then some (flt .eccUncorr 0 1) else none

/-- Whether an element's stored bits meet bytes lo to hi - 1 of its tile (03 R63 to R66). -/
def hTouches (h : BitVec 256) (tile lo hi i j : Nat) : Bool :=
  let meets := fun (bit n : Nat) => bit < 8 * hi && 8 * lo < bit + n
  match hElem h with
  | .bx m =>
    let p := hPlace h i j
    let base := hBody h + p.1 * hStride h
    meets (8 * (base + p.2 / 32 * (4 * m)) + m * (p.2 % 32)) m || meets (8 * (base + ceilDiv (hLineLen h) 32 * (4 * m) + p.2 / 32)) 8
  | .float _ | .int _ _ =>
    let w := (hElem h).width
    if hSparse h = 1 || hSparse h = 2 then (hNamed h tile i j).any (fun t => meets (8 * (hBody h + (hPlace h i j).1 * hStride h) + w * t) w)
    else (hBitAddr h tile i j).any (fun b => meets b w)

/-- Whether an MX that reads a tile fetches a granule of it, by its offset (02 R54; 03 R67): under a block mask, or where validity masks leave
elements out (`used`), a granule of the body that holds nothing but elements left out is not fetched. DEDUCED (entry 64); unsafe. -/
def hFetched (h : BitVec 256) (tile : Nat) (used : Option (Nat → Nat → Bool)) (o : Nat) : Bool :=
  (hSparse h != 4 && used.isNone) || o < hBody h || hBody h + hBodyBytes h ≤ o ||
    (List.range (hRows h)).any (fun i => (List.range (hCols h)).any (fun j =>
      hKept h tile i j && used.all (fun f => f i j) && hTouches h tile o (o + 8) i j))

/-- Whether an uncorrectable error stands in what an MX fetches of a tile at an address, its header apart (10 R233). -/
def State.tileBad (s : State) (a : Nat) (h : BitVec 256) (tile : Nat) (used : Option (Nat → Nat → Bool)) : Bool :=
  s.bad.any (fun g => a + 32 ≤ 8 * g && 8 * g < a + hExtent h && hFetched h tile used (8 * g - a))

/-- A tile operand as an op reads it: its header, the number its bytes hold, the offset that a fault names, and whether its body
has an uncorrectable error. -/
structure TileIn where
  hdr : BitVec 256
  tile : Nat
  off : Nat
  bad : Bool
  deriving DecidableEq, Repr

/-- A tile operand found and its header checked (03 R73, R84; 10 R233, R237, R238). A lost mark is tested with its register's header
check. DESIGN CHOICE (entry 64); unsafe. -/
def State.tileIn (s : State) (k : Nat) (m : Mx) (t : TileReg) (role : Nat) : Except FaultInfo TileIn :=
  match t with
  | .h n =>
    match m.h.find? n.toNat with
    | none => .error (roleFault .shelfState 0 role)
    | some x =>
      match mxHdrFault x.off 3 x.hdr with
      | some c => .error (roleFault c x.off role)
      | none =>
        let tile := s.peek (padAddr k x.off) (hExtent x.hdr)
        .ok ⟨x.hdr, tile, x.off, s.tileBad (padAddr k x.off) x.hdr tile none⟩
  | .b n =>
    match m.b.find? n.toNat with
    | none => .error (roleFault .shelfState 0 role)
    | some x =>
      match mxHdrFault 0 3 x.hdr with
      | some c => .error (roleFault c 0 role)
      | none => if x.lost then .error (flt .eccUncorr 0 1) else .ok ⟨x.hdr, memNat x.cells 0 x.extent, 0, false⟩
  | .c _ => .error (flt .illegal 0)

/-- The fault of a check, if it fails. -/
def failOf {α : Type} (r : Except FaultInfo α) : Option FaultInfo :=
  match r with
  | .error f => some f
  | .ok _ => none

/-- Number of the bits of a mask set below n. -/
def maskCount (mask : BitVec 256) (n : Nat) : Nat := ((List.range n).filter mask.getLsbD).length

/-- A result header (03 R83): offsets, OWNER and the other fields zero. -/
def resultHdr (efmt rows cols : Nat) (mask : Option (BitVec 256)) : BitVec 256 :=
  let fill := match mask with | some m => maskCount m rows | none => rows
  let flags := match mask with | some _ => 9 | none => 8
  hSeal (BitVec.ofNat 256 (0x4A37 + 2 ^ 16 + 4 * 2 ^ 24 + efmt * 2 ^ 32 + rows * 2 ^ 64 + cols * 2 ^ 80 + flags * 2 ^ 104 + fill * 2 ^ 176))

/-- The mask of an accumulator, where it has one. -/
def Acc.maskOf (a : Acc) : Option (BitVec 256) := if hMasked a.hdr then some a.mask else none

end Sys2Proof.Machine
end

