-- ==== Sys2Proof/Machine/MxTile.lean ====
section
/-! DEFINITION. The M ops (10 R237 to R242): operand roles and shapes (03 R80 to R82), group sums (02 R54 to R57), result headers
(03 R83), and the conversions of CSTORE (10 R241; 02 R44, R48). -/
namespace Sys2Proof.Machine

/-- The kind of an element format in the inference table (03 R80). -/
inductive PairKind where
  | float
  | int
  | none
  deriving DecidableEq, Repr

/-- The kind of a format. -/
def pairKind (e : Elem) : PairKind :=
  match e with
  | .float f => if f = fp64 then .none else .float
  | .bx _ => .float
  | .int w _ => if w = 32 then .none else .int

/-- EFMT of the result (03 R80), or the operand that is refused. -/
def inferFmt (a b : BitVec 256) : Except Nat Nat :=
  match pairKind (hElem a), pairKind (hElem b) with
  | .none, _ => .error 0
  | .float, .float => .ok 0x01
  | .int, .int => .ok (if hSlayout a = 0 && hSlayout b = 0 then 0x30 else 0x01)
  | .float, _ => .error 1
  | .int, _ => .error 1

/-- Pass width of a format (02 R53). -/
def passWidth (e : Elem) : Nat := if e = .float fp32 then 64 else e.width

/-- What every role refuses of a transposed view (03 R81). -/
def viewOk (h : BitVec 256) : Bool :=
  !hTview h || (hSparse h == 0 && !(hElem h).isBx && !hMasked h && hSlayout h ≤ 1)

/-- Whether a tile may be operand A (03 R81). -/
def roleA (h : BitVec 256) : Bool :=
  hSparse h != 1 && hSparse h != 2 && (!(hElem h).isBx || hLayout h == 0) && (hSlayout h < 4 || hLayout h == 0) && hSlayout h != 3 && viewOk h

/-- Whether a tile may be operand B (03 R81). -/
def roleB (h : BitVec 256) : Bool :=
  ((hSparse h != 1 && hSparse h != 2) || hLayout h == 1) && (!(hElem h).isBx || hLayout h == 1) && (hSlayout h < 4 || hLayout h == 1) &&
    hSlayout h != 2 && viewOk h

/-- Rows of a tile's view (03 R81). -/
def vRows (h : BitVec 256) : Nat := if hTview h then hCols h else hRows h
/-- Columns of a tile's view. -/
def vCols (h : BitVec 256) : Nat := if hTview h then hRows h else hCols h

/-- The stored values of view element (i, j) (03 R81). -/
def TileIn.values (t : TileIn) (i j : Nat) : List XVal :=
  if hTview t.hdr then hValues t.hdr t.tile j i else hValues t.hdr t.tile i j

/-- The mask that a tile carries. -/
def TileIn.mask (t : TileIn) : BitVec 256 := BitVec.ofNat 256 (tileNat t.tile (hMask t.hdr) 32)

/-- Whether row i of a tile is valid (03 R69). -/
def TileIn.valid (t : TileIn) (i : Nat) : Bool := hValid t.hdr t.mask.toNat i

/-- The checks of MMA and MMAZ (10 R237; 03 R80 to R82, R84). `acc` is the accumulator that MMA adds to. -/
def mmaShape (a b : TileIn) (acc : Option Acc) : Option FaultInfo :=
  match inferFmt a.hdr b.hdr with
  | .error 0 => some (roleFault .hdrUnsup a.off 0)
  | .error _ => some (roleFault .hdrUnsup b.off 1)
  | .ok e =>
    if !roleA a.hdr then some (roleFault .hdrUnsup a.off 0)
    else if !roleB b.hdr then some (roleFault .hdrUnsup b.off 1)
    else if vCols a.hdr != vRows b.hdr then some (roleFault .hdrMismatch b.off 1)
    else if 128 < vRows a.hdr then some (roleFault .hdrMismatch a.off 0)
    else if 128 < vCols b.hdr then some (roleFault .hdrMismatch b.off 1)
    else match acc with
      | none => none
      | some c =>
        if hRows c.hdr != vRows a.hdr || hCols c.hdr != vCols b.hdr || hEfmt c.hdr != e then some (roleFault .hdrMismatch 0 2) else none

/-- The operands of MMA and MMAZ, or the first failure (03 R84). -/
def State.mmaIn (s : State) (k : Nat) (m : Mx) (h : BitVec 4) (t : TileReg) (acc : Option Acc) : Except FaultInfo (TileIn × TileIn) :=
  match s.tileIn k m (.h h) 0 with
  | .error f => .error f
  | .ok a =>
    match s.tileIn k m t 1 with
    | .error f => .error f
    | .ok b =>
      match acc.bind accCheck with
      | some f => .error f
      | none =>
        match mmaShape a b acc with
        | some f => .error f
        | none => .ok (a, b)

/-- Row i of A along K: the values at each k, none where the row is masked. -/
def TileIn.line (t : TileIn) (i n : Nat) : List (Option (List XVal)) :=
  (List.range n).map (fun k => if t.valid i then some (t.values i k) else none)
/-- Column j of B along K. -/
def TileIn.column (t : TileIn) (j n : Nat) : List (Option (List XVal)) :=
  (List.range n).map (fun k => if t.valid k then some (t.values k j) else none)

/-- A product of two integers is exact, and an integer 0 has no sign (02 R57). -/
def XVal.exactInt : XVal → XVal
  | .fin s m e => if m = 0 then plusZero else .fin s m e
  | .nan => .nan
  | .inf s => .inf s

/-- The products at one k (02 R54, R57; 03 R65): +0 where a row is masked. `int` says that both operands are integers. -/
def productsAt (int : Bool) : Option (List XVal) → Option (List XVal) → List XVal
  | some x, some y => (x.map (fun a => y.map (fun b => if int then XVal.exactInt (a.mul b).1 else (a.mul b).1))).flatten
  | none, _ => [plusZero]
  | some _, none => [plusZero]

/-- The products of a line and a column, by k. -/
def productsOf (int : Bool) : List (Option (List XVal)) → List (Option (List XVal)) → List (List XVal)
  | x :: xs, y :: ys => productsAt int x y :: productsOf int xs ys
  | [], _ => []
  | _ :: _, [] => []

/-- GroupSum (02 R54, R55): groups of 16 along K, the scales of each, and one rounding a group. -/
def groupSum : List (List XVal) → Nat → (Nat → XVal) → (Nat → XVal) → Nat → Nat → Nat
  | _, _, _, _, 0, acc => acc
  | [], _, _, _, _ + 1, acc => acc
  | p :: ps, g, sa, sb, fuel + 1, acc =>
    let l := p :: ps
    let S := (sumExact 0 ((l.take 16).flatten)).1
    let G := ((S.mul (sa g)).1.mul (sb g)).1
    let r := fp32.round 0 (XVal.add 0 (fp32.decode acc) G).1
    groupSum (l.drop 16) (g + 1) sa sb fuel r.1

/-- The integer that a value is. -/
def XVal.toExact : XVal → Int
  | .fin s m e => scaled s m e 0
  | .nan => 0
  | .inf _ => 0

/-- The elements of the result (02 R54, R57). -/
def mmaRows (a b : TileIn) (acc : Option Acc) (efmt : Nat) : List (List Word32) :=
  let kn := vCols a.hdr
  let cols := (List.range (vCols b.hdr)).map (fun j => (j, b.column j kn))
  (List.range (vRows a.hdr)).map (fun i =>
    let line := a.line i kn
    cols.map (fun (j, col) =>
      let old : Word32 := match acc with | some c => (c.rows.getD i []).getD j 0 | none => 0
      let ps := productsOf (pairKind (hElem a.hdr) == .int && pairKind (hElem b.hdr) == .int) line col
      if efmt = 0x30 then old + BitVec.ofInt 32 (ps.flatten.foldl (fun n v => n + v.toExact) 0)
      else BitVec.ofNat 32 (groupSum ps 0 (fun g => hScaleOf a.hdr a.tile i (16 * g)) (fun g => hScaleOf b.hdr b.tile (16 * g) j)
        (ceilDiv kn 16) old.toNat)))

/-- The mask of the result (03 R83). -/
def mmaMask (a : TileIn) (acc : Option Acc) : Option (BitVec 256) :=
  let ma := if hMasked a.hdr then some a.mask else none
  match acc with
  | none => ma
  | some c =>
    match ma, c.maskOf with
    | some x, some y => some (x ||| y)
    | some _, none => none
    | none, _ => none

/-- The accumulator that MMA and MMAZ write (10 R237). -/
def mmaResult (a b : TileIn) (acc : Option Acc) (lost : Bool) : Acc :=
  let efmt := match inferFmt a.hdr b.hdr with | .ok e => e | .error _ => 0x01
  let mask := mmaMask a acc
  ⟨resultHdr efmt (vRows a.hdr) (vCols b.hdr) mask, mask.getD 0, mmaRows a b acc efmt, lost⟩

/-- Streaming time in m-cycles (10 R231). -/
def streamTime (a b : BitVec 256) : Nat :=
  ceilDiv (vCols a) 128 * ceilDiv (vRows a * Nat.max (passWidth (hElem a)) (passWidth (hElem b))) 16

/-- The stored elements of a tile that a use of its view elements reads. -/
def viewUse (h : BitVec 256) (f : Nat → Nat → Bool) (i j : Nat) : Bool := if hTview h then f j i else f i j

/-- Whether MMA or MMAZ fetches an uncorrectable error of its operands (10 R233): where row i of A or row k of B is masked, neither element of
the product at (i, k) is read (02 R54). A weight-buffer slot has been tested by its lost mark. DEDUCED (entry 64); unsafe. -/
def State.mmaBad (s : State) (k : Nat) (t : TileReg) (a b : TileIn) : Bool :=
  let masked := hMasked a.hdr || hMasked b.hdr
  let useA := viewUse a.hdr (fun i l => a.valid i && b.valid l)
  let useB := viewUse b.hdr (fun l _ => b.valid l && (List.range (vRows a.hdr)).any a.valid)
  s.tileBad (padAddr k a.off) a.hdr a.tile (if masked then some useA else none) ||
    match t with
    | .h _ => s.tileBad (padAddr k b.off) b.hdr b.tile (if masked then some useB else none)
    | .b _ | .c _ => false

/-- The issue step of MMA and MMAZ (10 R230, R231, R237). -/
def State.mmaIssue (s : State) (k : Nat) (u : MxUnit) (head : Nat) (c : BitVec 3) (h : BitVec 4) (t : TileReg) (acc : Option Acc) : State :=
  match s.mmaIn k (s.mx k u) h t acc with
  | .error _ => s
  | .ok (a, b) =>
    let S := streamTime a.hdr b.hdr
    let lost := s.mmaBad k t a b
    let s1 := s.fly k u head [.h h, t] [.c c] (S + 24) (.acc c.toNat (mmaResult a b acc lost)) lost
    (s1.setMx k u { s1.mx k u with arrayFree := s.mnow + S }).count (.cluster k) 10 S

/-- MMA (10 R237). -/
def execMma (c : BitVec 3) (h : BitVec 4) (t : TileReg) (s : State) : Host.Outcome State Fault Refusal :=
  runMx (.mma c h t) (fun k u s => let m := s.mx k u; failOf (s.mmaIn k m h t (some (m.creg c))))
    (fun k u head s => s.mmaIssue k u head c h t (some ((s.mx k u).creg c))) s

/-- MMAZ (10 R237). -/
def execMmaz (c : BitVec 3) (h : BitVec 4) (t : TileReg) (s : State) : Host.Outcome State Fault Refusal :=
  runMx (.mmaz c h t) (fun k u s => failOf (s.mmaIn k (s.mx k u) h t none)) (fun k u head s => s.mmaIssue k u head c h t none) s

/-- Bytes of a weight-buffer slot (01 R34). -/
def slotBytes : Nat := 0x40000

/-- Whether the copy of a tile into a slot meets an uncorrectable error: the slot holds the tile as stored, bricks left out and all
(10 R233, R238). -/
def State.slotBad (s : State) (k : Nat) (a : TileIn) : Bool := badIn s.bad (padAddr k a.off + 32) (hExtent a.hdr - 32)

/-- WLOAD (10 R238). -/
def execWload (b : BitVec 2) (h : BitVec 4) (s : State) : Host.Outcome State Fault Refusal :=
  runMx (.wload b h)
    (fun k u s => match s.tileIn k (s.mx k u) (.h h) 0 with
      | .error f => some f
      | .ok a => if slotBytes < hExtent a.hdr then some (roleFault .hdrUnsup a.off 0) else none)
    (fun k u head s => match s.tileIn k (s.mx k u) (.h h) 0 with
      | .error _ => s
      | .ok a =>
        let e := hExtent a.hdr
        s.fly k u head [.h h] [.b b] (ceilDiv e 256 + 8)
          (.slot b.toNat ⟨a.off, a.hdr, memCells 0 (s.padRead k a.off e), e, s.slotBad k a⟩) (s.slotBad k a)) s

/-- WDROP (10 R238): the slot is empty for the next bundle. -/
def execWdrop (b : BitVec 2) (s : State) : Host.Outcome State Fault Refusal :=
  runMx (.wdrop b) noCheck (fun k u _ s => s.later k u 1 (.b b.toNat none)) s

/-- CZERO (10 R239). -/
def execCzero (c : BitVec 3) (e : BitVec 8) (rows : BitVec 7) (cols : BitVec 7) (s : State) : Host.Outcome State Fault Refusal :=
  runMx (.czero c e rows cols)
    (fun _ _ _ => if e = 0x01 || e = 0x30 then none else some (roleFault .hdrUnsup 0 3))
    (fun k u head s =>
      let r := rows.toNat + 1
      let n := cols.toNat + 1
      s.fly k u head [] [.c c] 4 (.acc c.toNat ⟨resultHdr e.toNat r n none, 0, List.replicate r (List.replicate n 0), false⟩) false) s

/-- Whether CLOAD takes a tile (10 R240). -/
def cloadOk (h : BitVec 256) : Bool :=
  (hEfmt h == 0x01 || hEfmt h == 0x30) && hSparse h == 0 && hSlayout h == 0 && hRows h ≤ 128 && hCols h ≤ 128 && hLayout h ≤ 2

/-- The 32-bit element (i, j) of a dense tile's view. -/
def TileIn.raw32 (t : TileIn) (i j : Nat) : Word32 :=
  let p := if hTview t.hdr then (j, i) else (i, j)
  BitVec.ofNat 32 (tileBits t.tile ((hBitAddr t.hdr t.tile p.1 p.2).getD 0) 32)

/-- The accumulator that CLOAD writes (10 R240). A transposed view with a MASK is loaded too: the mask and FILL stay those of the source, over
the rows of the view. DESIGN CHOICE (entry 64); unsafe. -/
def cloadResult (t : TileIn) : Acc :=
  let h := t.hdr
  let h1 := setField (setField h 103 96 0) 175 112 0
  let h2 := setField (setField h1 31 24 4) 111 104 (hFlags h % 2 + 8)
  let h3 := setField (setField h2 79 64 (vRows h)) 95 80 (vCols h)
  ⟨hSeal h3, if hMasked h then t.mask else 0,
    (List.range (vRows h)).map (fun i => (List.range (vCols h)).map (fun j => t.raw32 i j)), t.bad⟩

/-- CLOAD (10 R240). -/
def execCload (c : BitVec 3) (h : BitVec 4) (s : State) : Host.Outcome State Fault Refusal :=
  runMx (.cload c h)
    (fun k u s => match s.tileIn k (s.mx k u) (.h h) 0 with
      | .error f => some f
      | .ok a => if cloadOk a.hdr then none else some (roleFault .hdrUnsup a.off 0))
    (fun k u head s => match s.tileIn k (s.mx k u) (.h h) 0 with
      | .error _ => s
      | .ok a =>
        s.fly k u head [.h h] [.c c] (ceilDiv (4 * hRows a.hdr * hCols a.hdr) 256 + 8) (.acc c.toNat (cloadResult a)) a.bad) s

/-- The row index of CROW and CPUT: BOUNDS outside the accumulator (10 R242). -/
def rowCheck (a : Acc) (i : Word32) : Option FaultInfo :=
  match accCheck a with
  | some f => some f
  | none => if field i 31 8 != 0 || hRows a.hdr ≤ i.toNat then some (flt .bounds (word i.toNat)) else none

/-- CROW (10 R242). -/
def execCrow (v : Reg) (c : BitVec 3) (sb : Reg) (s : State) : Host.Outcome State Fault Refusal :=
  runMx (.crow v c sb) (fun k u s => let m := s.mx k u; rowCheck (m.creg c) (m.sreg sb))
    (fun k u head s =>
      let m := s.mx k u
      let row := (m.creg c).rows.getD (m.sreg sb).toNat []
      let lanes := (row ++ List.replicate 128 0).take 128
      (s.later k u 4 (.v v.toNat (BitVec.allOnes 128) lanes)).fly k u head [.c c] [] 2 .nothing false) s

/-- The accumulator after CPUT (10 R242). -/
def cputResult (a : Acc) (i : Nat) (lanes : List Word32) : Acc :=
  let n := hCols a.hdr
  let newBit := hMasked a.hdr && !a.mask.getLsbD i
  let h := if newBit then setField a.hdr 191 176 (hFill a.hdr + 1) else a.hdr
  { a with hdr := hSeal h, mask := if newBit then a.mask ||| (1 <<< i) else a.mask, rows := setAt a.rows i (lanes.take n) }

/-- CPUT (10 R242). -/
def execCput (c : BitVec 3) (v : Reg) (sb : Reg) (s : State) : Host.Outcome State Fault Refusal :=
  runMx (.cput c v sb) (fun k u s => let m := s.mx k u; rowCheck (m.creg c) (m.sreg sb))
    (fun k u head s =>
      let m := s.mx k u
      s.fly k u head [] [.c c] 2 (.acc c.toNat (cputResult (m.creg c) (m.sreg sb).toNat (m.vlanes v))) false) s

/-- Whether CSTORE makes a conversion (10 R241). -/
def storeOk (src efmt ly sl sf : Nat) : Bool :=
  let plain := sl == 0 && sf == 0
  let bx := 0x10 ≤ efmt && efmt ≤ 0x16
  let narrow := efmt == 2 || efmt == 3 || efmt == 4 || efmt == 5 || efmt == 7
  let conv :=
    if src = 0x01 then (efmt == 0x01 && plain) || (narrow && (plain || (1 ≤ sl && sl ≤ 5 && sf == 1))) || (bx && plain)
    else (efmt == 0x30 || efmt == 8 || efmt == 9 || efmt == 0x0A) && plain
  conv && ly ≤ 2 && (sl < 4 || ly ≤ 1) && (!bx || ly ≤ 1)

/-- The header that CSTORE writes (10 R241; 03 R83): FILL is counted anew, as for any result header. DEDUCED (entry 64); unsafe. -/
def storeHdr (a : Acc) (efmt ly sl sf : Nat) : BitVec 256 :=
  let base := resultHdr efmt (hRows a.hdr) (hCols a.hdr) a.maskOf
  let h1 := setField (setField (setField (setField base 47 40 sl) 55 48 sf) 103 96 ly) 127 112 1
  let body := hBodyBytes h1 / 32
  let scale := hScaleBytes h1 / 32
  let h2 := if scale = 0 then h1 else setField h1 143 128 (1 + body)
  hSeal (if hMasked h1 then setField h2 175 160 (1 + body + scale) else h2)

/-- A list cut into pieces of n. -/
def chunks {α : Type} (n : Nat) : Nat → List α → List (List α)
  | 0, _ => []
  | _ + 1, [] => []
  | fuel + 1, x :: l => (x :: l).take n :: chunks n fuel ((x :: l).drop n)

/-- Columns of a list of rows. -/
def columnsOf {α : Type} (dflt : α) (cols : Nat) (rows : List (List α)) : List (List α) :=
  (List.range cols).map (fun j => rows.map (fun r => r.getD j dflt))

/-- Codes of w bits packed from the least significant bit up (02 R41). -/
def packCodes (w : Nat) : List Nat → Nat
  | [] => 0
  | x :: l => x % 2 ^ w + 2 ^ w * packCodes w l

/-- The scale that the MX chooses for a set of elements (02 R48). -/
def chooseScale (f : Fmt) (vs : List XVal) : Nat :=
  if vs.any (fun v => match v with | .inf _ => true | .nan => false | .fin _ _ _ => false) then 254
  else
    let mags := vs.filterMap (fun v => match v with | .fin _ m e => if m = 0 then none else some (XVal.fin false m e) | .nan => none | .inf _ => none)
    match mags with
    | [] => 0
    | x :: l =>
      let top := l.foldl (fun a b => if XVal.lt false a b then b else a) x
      ((List.range 255).find? (fun (X : Nat) => (f.round 0 (top.shift (127 - (X : Int)))).2 &&& fOF == 0)).getD 254

/-- The sets of elements that each scale covers, in order of scale index (03 R68). -/
def scaleSets (h : BitVec 256) (rows : List (List XVal)) : List (List XVal) :=
  let cols := columnsOf plusZero (hCols h) rows
  let lines := if hLayout h = 1 then cols else rows
  match hSlayout h with
  | 1 => [rows.flatten]
  | 2 => rows
  | 3 => cols
  | 4 => (lines.map (chunks 32 8)).flatten
  | 5 => (lines.map (chunks 16 16)).flatten
  | _ => []

/-- The scale index of element (i, j) (03 R68). -/
def scaleIndex (h : BitVec 256) (i j : Nat) : Nat :=
  let p := hPlace h i j
  match hSlayout h with
  | 2 => i
  | 3 => j
  | 4 => p.1 * ceilDiv (hLineLen h) 32 + p.2 / 32
  | 5 => p.1 * ceilDiv (hLineLen h) 16 + p.2 / 16
  | _ => 0

/-- The code that CSTORE writes for one raw element (10 R241), with the scale X of its set. -/
def storeCode (e : Elem) (src : Nat) (x : Word32) (scale : Option Nat) : Nat :=
  match e with
  | .float f =>
    if f = fp32 then x.toNat
    else
      let v := fp32.decode x.toNat
      (f.round 0 (match scale with | some X => v.shift (127 - (X : Int)) | none => v)).1
  | .int w signed =>
    if w = 32 || src = 0x01 then x.toNat
    else
      let lo : Int := if signed then -(2 ^ (w - 1)) else 0
      let hi : Int := if signed then 2 ^ (w - 1) - 1 else 2 ^ w - 1
      (BitVec.ofInt w (max lo (min hi x.toInt))).toNat
  | .bx _ => 0

/-- The bytes of a BX line: mantissas of its blocks, then their exponents, then padding of zero (02 R42, 03 R64). -/
def bxLine (m stride : Nat) (vs : List XVal) : List Byte :=
  let blocks := (chunks 32 8 vs).map (fun b => bxEncode m ((b ++ List.replicate 32 plusZero).take 32))
  let mants := (blocks.map (fun b => leBytes (4 * m) (packCodes m (b.2.map (fun (v : Int) => (BitVec.ofInt m v).toNat))))).flatten
  let all := mants ++ blocks.map (fun b => BitVec.ofNat 8 b.1)
  (all ++ List.replicate stride 0).take stride

/-- The body that CSTORE writes (10 R241; 03 R63 to R66). -/
def resultBody (h : BitVec 256) (rows : List (List Word32)) (codes : List (List Nat)) : List Byte :=
  let w := (hElem h).width
  match hElem h with
  | .bx m =>
    let vs := rows.map (fun r => r.map (fun x => fp32.decode x.toNat))
    let lines := if hLayout h = 1 then columnsOf plusZero (hCols h) vs else vs
    (lines.map (bxLine m (hStride h))).flatten
  | .float _ | .int _ _ =>
    if hLayout h = 2 then
      ((List.range (hBricks h)).map (fun t =>
        let q := t / hBrickCols h
        let p := t % hBrickCols h
        leBytes (hBrickBytes h) (packCodes w ((List.range 256).map (fun n => (codes.getD (16 * q + n / 16) []).getD (16 * p + n % 16) 0))))).flatten
    else
      let lines := if hLayout h = 1 then columnsOf 0 (hCols h) codes else codes
      (lines.map (fun l => leBytes (hStride h) (packCodes w l))).flatten

/-- The bytes that follow the header of a buffer that CSTORE writes: body, scales, mask (10 R241). -/
def storeBytes (a : Acc) (h : BitVec 256) : List Byte :=
  let vals := a.rows.map (fun r => r.map (fun x => fp32.decode x.toNat))
  let scales := match hElem h with
    | .float f => (scaleSets h vals).map (chooseScale f)
    | .int _ _ => []
    | .bx _ => []
  let codes := (List.range a.rows.length).map (fun i =>
    let r := a.rows.getD i []
    (List.range r.length).map (fun j => storeCode (hElem h) (hEfmt a.hdr) (r.getD j 0) (scales[scaleIndex h i j]?)))
  let sc := (scales.map (fun X => BitVec.ofNat 8 X) ++ List.replicate (hScaleBytes h) 0).take (hScaleBytes h)
  resultBody h a.rows codes ++ sc ++ (if hMasked h then leBytes 32 a.mask.toNat else [])

/-- Extent of the RESULT buffer whose header stands at an offset, or 0 (03 R75). -/
def State.ownResult (s : State) (k off : Nat) : Nat :=
  if s.seen k off = .result then hExtent (s.hdrAt (padAddr k off)) else 0

/-- Whether every granule of an extent is NONE or one of the buffer's own (10 R241). -/
def Cluster.granulesOwn (cl : Cluster) (off extent old : Nat) : Bool :=
  let g := granules off extent
  let q := if old = 0 then (0, 0) else granules off old
  cl.guards.all (fun e => e.1 < g.1 || g.1 + g.2 ≤ e.1 || (q.1 ≤ e.1 && e.1 < q.1 + q.2))

/-- The checks of CSTORE (10 R241): header, address, conversion, extent, granules. A combination that the table leaves out is HDRUNSUP, and
that is tested before the extent and the granules. DESIGN CHOICE (entry 64); unsafe. -/
def State.cstoreCheck (s : State) (k : Nat) (a : Acc) (off efmt ly sl sf : Nat) : Option FaultInfo :=
  match accCheck a with
  | some f => some f
  | none =>
    if off % 256 != 0 then some (flt .align (word off) 0 1)
    else if Config.padSize ≤ off then some (flt .bounds (word off) 0 1)
    else if !storeOk (hEfmt a.hdr) efmt ly sl sf then some (roleFault .hdrUnsup off 3)
    else
      let e := hExtent (storeHdr a efmt ly sl sf)
      if Config.padSize < off + e then some (flt .bounds (word off) 0 1)
      else if !(s.cluster k).granulesOwn off e (s.ownResult k off) then some (roleFault .shelfState off 3)
      else none

/-- CSTORE (10 R241): tags and header at issue, the rest over the busy time. A VLD of its own bundle reads what stood in the rest before, and a VST
of it is overwritten. DEDUCED (entry 51); unsafe. -/
def execCstore (c : BitVec 3) (sa : Reg) (disp : BitVec 32) (e : BitVec 8) (ly : BitVec 2) (sl : BitVec 3) (sf : BitVec 2) (s : State) :
    Host.Outcome State Fault Refusal :=
  runMx (.cstore c sa disp e ly sl sf)
    (fun k u s => let m := s.mx k u; s.cstoreCheck k (m.creg c) (m.offset sa disp) e.toNat ly.toNat sl.toNat sf.toNat)
    (fun k u head s =>
      let m := s.mx k u
      let off := m.offset sa disp
      let a := m.creg c
      let h := storeHdr a e.toNat ly.toNat sl.toNat sf.toNat
      let n := hExtent h
      let old := s.ownResult k off
      let cl := if old = 0 then s.cluster k else (s.cluster k).tagAll off old 0
      let s1 := (s.setCluster k (cl.tagOpen off n)).pokeHdr (padAddr k off) h
      s1.fly k u head [.c c] [] (ceilDiv n 256 + 8) (.store off n (memCells 32 (storeBytes a h)) []) false) s

end Sys2Proof.Machine
end

