-- ==== Sys2Proof/Machine/MxOps.lean ====
section
/-! DEFINITION. The V, X and S ops of a matrix unit (10 R234 to R236, R243 to R256, 09 R221). -/
namespace Sys2Proof.Machine

/-- A function of each enabled lane; the other lanes are left out (10 R229, R244). -/
def lanes1 (mask : BitVec 128) (f : Word32 → Word32) : Nat → List Word32 → List Word32
  | _, [] => []
  | i, a :: l => (if mask.getLsbD i then f a else 0) :: lanes1 mask f (i + 1) l

/-- A function of two lanes. -/
def lanes2 (mask : BitVec 128) (f : Word32 → Word32 → Word32) : Nat → List Word32 → List Word32 → List Word32
  | i, a :: l, b :: m => (if mask.getLsbD i then f a b else 0) :: lanes2 mask f (i + 1) l m
  | _, _, _ => []

/-- A function of three lanes. -/
def lanes3 (mask : BitVec 128) (f : Word32 → Word32 → Word32 → Word32) : Nat → List Word32 → List Word32 → List Word32 → List Word32
  | i, a :: l, b :: m, c :: n => (if mask.getLsbD i then f a b c else 0) :: lanes3 mask f (i + 1) l m n
  | _, _, _, _ => []

/-- An op that writes a v register L bundles later, on its enabled lanes (10 R228, R229). -/
def vecOp (i : Instr) (L : Nat) (v : Reg) (p : Option (BitVec 3)) (f : Mx → BitVec 128 → List Word32) (s : State) :
    Host.Outcome State Fault Refusal :=
  runMx i noCheck (fun k u _ s =>
    let m := s.mx k u
    s.later k u L (.v v.toNat (m.enabled p) (f m (m.enabled p)))) s

/-- An op that writes an s register for the next bundle (10 R228, R251). -/
def scalarOp (i : Instr) (d : Reg) (f : Mx → Word32) (s : State) : Host.Outcome State Fault Refusal :=
  runMx i noCheck (fun k u _ s => s.later k u 1 (.s d.toNat (f (s.mx k u)))) s

/-- An FP32 operation on lanes, RNE, without flags (10 R244). -/
def fpLane (f : Nat → Nat → Nat × Nat) (a b : Word32) : Word32 := BitVec.ofNat 32 (f a.toNat b.toNat).1

/-- The lane function of a kind (10 R245). -/
def kindLane (k : VKind) (fs fw : Word32 → Word32 → Word32) : Word32 → Word32 → Word32 :=
  match k with
  | .s => fs
  | .w => fw

/-- VADD (10 R245). -/
def execVadd (v a b : Reg) (k : VKind) (p : Option (BitVec 3)) (s : State) : Host.Outcome State Fault Refusal :=
  vecOp (.vadd v a b k p) 2 v p (fun m e => lanes2 e (kindLane k (fpLane (fp32.addOp 0)) (· + ·)) 0 (m.vlanes a) (m.vlanes b)) s
/-- VSUB. -/
def execVsub (v a b : Reg) (k : VKind) (p : Option (BitVec 3)) (s : State) : Host.Outcome State Fault Refusal :=
  vecOp (.vsub v a b k p) 2 v p
    (fun m e => lanes2 e (kindLane k (fpLane (fun x y => fp32.addOp 0 x (fp32.flip y))) (· - ·)) 0 (m.vlanes a) (m.vlanes b)) s
/-- VMUL. -/
def execVmul (v a b : Reg) (k : VKind) (p : Option (BitVec 3)) (s : State) : Host.Outcome State Fault Refusal :=
  vecOp (.vmul v a b k p) 3 v p (fun m e => lanes2 e (kindLane k (fpLane (fp32.mulOp 0)) (· * ·)) 0 (m.vlanes a) (m.vlanes b)) s
/-- VFMA. -/
def execVfma (v a b c : Reg) (p : Option (BitVec 3)) (s : State) : Host.Outcome State Fault Refusal :=
  vecOp (.vfma v a b c p) 4 v p
    (fun m e => lanes3 e (fun x y z => BitVec.ofNat 32 (fp32.fmaOp 0 x.toNat y.toNat z.toNat).1) 0 (m.vlanes a) (m.vlanes b) (m.vlanes c)) s
/-- VMAX. -/
def execVmax (v a b : Reg) (k : VKind) (p : Option (BitVec 3)) (s : State) : Host.Outcome State Fault Refusal :=
  vecOp (.vmax v a b k p) 2 v p
    (fun m e => lanes2 e (kindLane k (fpLane (fp32.minMax true)) (fun x y => if x.sle y then y else x)) 0 (m.vlanes a) (m.vlanes b)) s
/-- VMIN. -/
def execVmin (v a b : Reg) (k : VKind) (p : Option (BitVec 3)) (s : State) : Host.Outcome State Fault Refusal :=
  vecOp (.vmin v a b k p) 2 v p
    (fun m e => lanes2 e (kindLane k (fpLane (fp32.minMax false)) (fun x y => if x.sle y then x else y)) 0 (m.vlanes a) (m.vlanes b)) s

/-- A lane of VABS (10 R245): a NaN lane is returned whole. -/
def absLane (k : VKind) (a : Word32) : Word32 :=
  match k with
  | .s => if fp32.decode a.toNat = .nan then a else a &&& 0x7FFFFFFF
  | .w => if a.msb then -a else a
/-- VABS. -/
def execVabs (v a : Reg) (k : VKind) (p : Option (BitVec 3)) (s : State) : Host.Outcome State Fault Refusal :=
  vecOp (.vabs v a k p) 2 v p (fun m e => lanes1 e (absLane k) 0 (m.vlanes a)) s

/-- The predicate of VCMP on a lane (10 R246). -/
def cmpLane (cc : CmpOp) (k : VKind) (a b : Word32) : Bool :=
  match k with
  | .s => (fp32.cmpOp cc a.toNat b.toNat).1
  | .w => match cc with | .eq => a == b | .lt => a.slt b | .le => a.sle b | .un => false

/-- The bits that a predicate gives over lanes. -/
def laneBits (f : Word32 → Word32 → Bool) : List Word32 → List Word32 → Nat
  | a :: l, b :: m => (if f a b then 1 else 0) + 2 * laneBits f l m
  | _, _ => 0

/-- VCMP (10 R246). -/
def execVcmp (q : BitVec 3) (a b : Reg) (cc : CmpOp) (k : VKind) (p : Option (BitVec 3)) (s : State) : Host.Outcome State Fault Refusal :=
  runMx (.vcmp q a b cc k p) noCheck (fun n u _ s =>
    let m := s.mx n u
    s.later n u 2 (.p q.toNat (m.enabled p) (BitVec.ofNat 128 (laneBits (cmpLane cc k) (m.vlanes a) (m.vlanes b))))) s

/-- Lanes of two vectors by a predicate. -/
def selLanes (sel : BitVec 128) : Nat → List Word32 → List Word32 → List Word32
  | i, a :: l, b :: m => (if sel.getLsbD i then a else b) :: selLanes sel (i + 1) l m
  | _, _, _ => []
/-- VSEL (10 R246). -/
def execVsel (v a b : Reg) (q : BitVec 3) (p : Option (BitVec 3)) (s : State) : Host.Outcome State Fault Refusal :=
  vecOp (.vsel v a b q p) 2 v p (fun m _ => selLanes (m.preg q) 0 (m.vlanes a) (m.vlanes b)) s

/-- A lane of VCVT (10 R247). -/
def cvtLane (f : VcvtOp) (a : Word32) : Word32 :=
  let x := a.toNat
  let ofF := fun (src dst : Fmt) => BitVec.ofNat 32 (convert src dst 0 (x % 2 ^ src.width)).1
  let toI := fun (rm : Nat) => BitVec.ofInt 32 ((fp32.decode x).toInt rm (-(2 ^ 31)) (2 ^ 31 - 1)).1
  match f with
  | .s_w => BitVec.ofNat 32 (fp32.round 0 (XVal.ofInt a.toInt)).1
  | .w_s => toI 0
  | .wz_s => toI 1
  | .bf_s => ofF fp32 bf16
  | .s_bf => ofF bf16 fp32
  | .h_s => ofF fp32 fp16
  | .s_h => ofF fp16 fp32
  | .e4_s => ofF fp32 e4m3
  | .s_e4 => ofF e4m3 fp32
  | .e5_s => ofF fp32 e5m2
  | .s_e5 => ofF e5m2 fp32
  | .f4_s => ofF fp32 fp4
  | .s_f4 => ofF fp4 fp32
  | .b_w => BitVec.ofInt 32 (max (-128) (min 127 a.toInt))
/-- VCVT. -/
def execVcvt (v a : Reg) (f : VcvtOp) (p : Option (BitVec 3)) (s : State) : Host.Outcome State Fault Refusal :=
  vecOp (.vcvt v a f p) 4 v p (fun m e => lanes1 e (cvtLane f) 0 (m.vlanes a)) s

/-- Lanes with the ones left out absent (10 R244). -/
def presentLanes (mask : BitVec 128) : Nat → List Word32 → List (Option Word32)
  | _, [] => []
  | i, a :: l => (if mask.getLsbD i then some a else none) :: presentLanes mask (i + 1) l

/-- One level of the tree of 08 R198. -/
def treeLevel (f : Word32 → Word32 → Word32) : List (Option Word32) → List (Option Word32)
  | x :: y :: l => (match x, y with | none, _ => y | some _, none => x | some a, some b => some (f a b)) :: treeLevel f l
  | [x] => [x]
  | [] => []

/-- The tree over 128 lanes (10 R248). -/
def laneTree (f : Word32 → Word32 → Word32) (identity : Word32) : Nat → List (Option Word32) → Word32
  | 0, v => (v.headD none).getD identity
  | n + 1, v => laneTree f identity n (treeLevel f v)

/-- A reduction into an s register (10 R248). -/
def reduceOp (i : Instr) (d a : Reg) (p : Option (BitVec 3)) (f : Word32 → Word32 → Word32) (identity : Word32) (s : State) :
    Host.Outcome State Fault Refusal :=
  runMx i noCheck (fun k u _ s =>
    let m := s.mx k u
    s.later k u 6 (.s d.toNat (laneTree f identity 7 (presentLanes (m.enabled p) 0 (m.vlanes a))))) s

/-- VREDS (10 R248). -/
def execVreds (d a : Reg) (k : VKind) (p : Option (BitVec 3)) (s : State) : Host.Outcome State Fault Refusal :=
  reduceOp (.vreds d a k p) d a p (kindLane k (fpLane (fp32.addOp 0)) (· + ·)) 0 s

/-- Combine and identity of VREDM (10 R248). -/
def redmLane (f : RedmOp) : (Word32 → Word32 → Word32) × Word32 :=
  match f with
  | .maxS => (fpLane (fp32.minMax true), 0xFF800000)
  | .minS => (fpLane (fp32.minMax false), 0x7F800000)
  | .maxW => (fun x y => if x.sle y then y else x, 0x80000000)
  | .minW => (fun x y => if x.sle y then x else y, 0x7FFFFFFF)
/-- VREDM. -/
def execVredm (d a : Reg) (f : RedmOp) (p : Option (BitVec 3)) (s : State) : Host.Outcome State Fault Refusal :=
  reduceOp (.vredm d a f p) d a p (redmLane f).1 (redmLane f).2 s

/-- VBCAST (10 R245). -/
def execVbcast (v sa : Reg) (p : Option (BitVec 3)) (s : State) : Host.Outcome State Fault Refusal :=
  vecOp (.vbcast v sa p) 2 v p (fun m _ => List.replicate 128 (m.sreg sa)) s

/-- Element size of VLD (10 R249). -/
def vldSize (f : VldMode) : Nat := match f with | .x32 => 4 | .bf => 2 | .h => 2 | .b => 1 | .bu => 1 | .e4 => 1 | .e5 => 1
/-- Element size of VST. -/
def vstSize (f : VstMode) : Nat := match f with | .x32 => 4 | .bf => 2 | .h => 2 | .b => 1 | .bu => 1

/-- The lane that an element gives (10 R249). -/
def vldLane (f : VldMode) (x : Nat) : Word32 :=
  match f with
  | .x32 => BitVec.ofNat 32 x
  | .bf => BitVec.ofNat 32 (convert bf16 fp32 0 x).1
  | .h => BitVec.ofNat 32 (convert fp16 fp32 0 x).1
  | .b => (BitVec.ofNat 8 x).signExtend 32
  | .bu => BitVec.ofNat 32 x
  | .e4 => BitVec.ofNat 32 (convert e4m3 fp32 0 x).1
  | .e5 => BitVec.ofNat 32 (convert e5m2 fp32 0 x).1

/-- The element that a lane gives (10 R249). -/
def vstCode (f : VstMode) (a : Word32) : Nat :=
  match f with
  | .x32 => a.toNat
  | .bf => (convert fp32 bf16 0 a.toNat).1
  | .h => (convert fp32 fp16 0 a.toNat).1
  | .b => (BitVec.ofInt 8 (max (-128) (min 127 a.toInt))).toNat
  | .bu => (max 0 (min 255 a.toInt)).toNat

/-- The lanes that bytes give. -/
def loadLanes (f : VldMode) (mask : BitVec 128) : Nat → Nat → List Byte → List Word32
  | 0, _, _ => []
  | n + 1, i, bs =>
    (if mask.getLsbD i then vldLane f (leNat (bs.take (vldSize f))) else 0) :: loadLanes f mask n (i + 1) (bs.drop (vldSize f))

/-- VLD (10 R249). -/
def execVld (v sa : Reg) (disp : BitVec 32) (f : VldMode) (p : Option (BitVec 3)) (s : State) : Host.Outcome State Fault Refusal :=
  runMx (.vld v sa disp f p)
    (fun k u s =>
      let m := s.mx k u
      let o := m.offset sa disp
      match padCheck o (vldSize f) (128 * vldSize f) 0 with
      | some e => some e
      | none => eccFault k 0 (s.laneReadBad k o (m.enabled p) (vldSize f)))
    (fun k u _ s =>
      let m := s.mx k u
      s.later k u 4 (.v v.toNat (m.enabled p) (loadLanes f (m.enabled p) 128 0 (s.padRead k (m.offset sa disp) (128 * vldSize f))))) s

/-- The bytes that VST leaves: the enabled elements over what stands there. -/
def storeLanes (f : VstMode) (mask : BitVec 128) : Nat → List Word32 → List Byte → List Byte
  | _, [], _ => []
  | i, a :: l, old =>
    (if mask.getLsbD i then leBytes (vstSize f) (vstCode f a) else old.take (vstSize f)) ++
      storeLanes f mask (i + 1) l (old.drop (vstSize f))

/-- The first guarded byte of an access's enabled elements (03 R76). -/
def guardedLanes (cl : Cluster) (mask : BitVec 128) (size : Nat) : Nat → Nat → Nat → Option Nat
  | 0, _, _ => none
  | n + 1, i, o =>
    match (if mask.getLsbD i then guardedIn cl o size else none) with
    | some b => some b
    | none => guardedLanes cl mask size n (i + 1) (o + size)

/-- VST (10 R249). -/
def execVst (v sa : Reg) (disp : BitVec 32) (f : VstMode) (p : Option (BitVec 3)) (s : State) : Host.Outcome State Fault Refusal :=
  runMx (.vst v sa disp f p)
    (fun k u s =>
      let m := s.mx k u
      let o := m.offset sa disp
      match padCheck o (vstSize f) (128 * vstSize f) 1 with
      | some e => some e
      | none =>
        match guardedLanes (s.cluster k) (m.enabled p) (vstSize f) 128 0 o with
        | some b => some (roleFault .shelfState b 3 1)
        | none => eccFault k 1 (s.laneWriteBad k o (m.enabled p) (vstSize f)))
    (fun k u _ s =>
      let m := s.mx k u
      let o := m.offset sa disp
      let e := m.enabled p
      let bs := storeLanes f e 0 (m.vlanes v) (s.padRead k o (128 * vstSize f))
      { s with mem := memWrite s.mem (padAddr k o) bs,
               bad := s.bad.filter (fun g => !(padAddr k 0 ≤ 8 * g && (granuleHits k o e (vstSize f) g).length == 8)) }) s

/-- The order key of a score (10 R243): NaN below every number. -/
def scoreKey (efmt : Nat) (x : Word32) : Int :=
  if efmt = 0x30 then x.toInt
  else if fp32.decode x.toNat = .nan then -(2 ^ 33)
  else if x.msb then -(field x 30 0 : Int) else (field x 30 0 : Int)

/-- The score of a brick: its largest element in valid rows; a brick with none is below every value. -/
def brickScore (a : Acc) (q p : Nat) : Int :=
  let h := a.hdr
  let rows := (List.range 16).filterMap (fun i =>
    let r := 16 * q + i
    if r < hRows h && hValid h a.mask.toNat r then some ((((a.rows.getD r []).take (hCols h)).drop (16 * p)).take 16) else none)
  (rows.flatten).foldl (fun m x => max m (scoreKey (hEfmt h) x)) (-(2 ^ 34))

/-- The bits of a brick row: the k highest scores, ties to the lower column. -/
def brickBits (scores : List Int) (k : Nat) : List Bool :=
  (List.range scores.length).map (fun j =>
    let x := scores.getD j 0
    decide (((List.range scores.length).filter (fun i => let y := scores.getD i 0; x < y || (x == y && i < j))).length < k))

/-- The bitmap of BTOPK (10 R243). -/
def brickMap (a : Acc) (k : Nat) : List Byte :=
  let rows := ceilDiv (hRows a.hdr) 16
  let cols := hBrickCols a.hdr
  let bs := ((List.range rows).map (fun q => brickBits ((List.range cols).map (brickScore a q)) k)).flatten
  leBytes (up32 (ceilDiv (hBricks a.hdr) 8)) (packCodes 1 (bs.map (fun b => if b then 1 else 0)))

/-- BTOPK (10 R243). -/
def execBtopk (d : Reg) (c : BitVec 3) (sb : Reg) (disp : BitVec 32) (s : State) : Host.Outcome State Fault Refusal :=
  runMx (.btopk d c sb disp)
    (fun k u s =>
      let m := s.mx k u
      let a := m.creg c
      let o := m.offset sb disp
      match accCheck a with
      | some f => some f
      | none =>
        let n := up32 (ceilDiv (hBricks a.hdr) 8)
        match padCheck o 32 n 1 with
        | some f => some f
        | none => s.mxGuard k o n)
    (fun k u _ s =>
      let m := s.mx k u
      s.poke (padAddr k (m.offset sb disp)) (brickMap (m.creg c) (m.sreg d).toNat)) s

/-- XEXP2 (10 R250). -/
def execXexp2 (v a : Reg) (p : Option (BitVec 3)) (s : State) : Host.Outcome State Fault Refusal :=
  vecOp (.xexp2 v a p) 8 v p (fun m e => lanes1 e (fun x => BitVec.ofNat 32 (fp32.exp2Op 0 x.toNat).1) 0 (m.vlanes a)) s
/-- XLOG2. -/
def execXlog2 (v a : Reg) (p : Option (BitVec 3)) (s : State) : Host.Outcome State Fault Refusal :=
  vecOp (.xlog2 v a p) 8 v p (fun m e => lanes1 e (fun x => BitVec.ofNat 32 (fp32.log2Op 0 x.toNat).1) 0 (m.vlanes a)) s
/-- XRCP. -/
def execXrcp (v a : Reg) (p : Option (BitVec 3)) (s : State) : Host.Outcome State Fault Refusal :=
  vecOp (.xrcp v a p) 8 v p (fun m e => lanes1 e (fun x => BitVec.ofNat 32 (fp32.rcpOp 0 x.toNat).1) 0 (m.vlanes a)) s
/-- XRSQ. -/
def execXrsq (v a : Reg) (p : Option (BitVec 3)) (s : State) : Host.Outcome State Fault Refusal :=
  vecOp (.xrsq v a p) 8 v p (fun m e => lanes1 e (fun x => BitVec.ofNat 32 (fp32.rsqOp 0 x.toNat).1) 0 (m.vlanes a)) s
/-- XTANH. -/
def execXtanh (v a : Reg) (p : Option (BitVec 3)) (s : State) : Host.Outcome State Fault Refusal :=
  vecOp (.xtanh v a p) 8 v p (fun m e => lanes1 e (fun x => BitVec.ofNat 32 (tanh32 x.toNat)) 0 (m.vlanes a)) s
/-- XSIG. -/
def execXsig (v a : Reg) (p : Option (BitVec 3)) (s : State) : Host.Outcome State Fault Refusal :=
  vecOp (.xsig v a p) 8 v p (fun m e => lanes1 e (fun x => BitVec.ofNat 32 (sigmoid32 x.toNat)) 0 (m.vlanes a)) s

/-- The checks of TAKE (10 R234): the header of the handle taken, then the destination (10 R233; 03 R84). -/
def State.takeCheck (s : State) (k : Nat) (m : Mx) (h : BitVec 4) : Option FaultInfo :=
  let occupied := if (m.h.find? h.toNat).isSome then some (roleFault .shelfState 0 3) else none
  match m.shelf with
  | [] => occupied
  | off :: _ =>
    match s.bad.find? (fun g => padAddr k off ≤ 8 * g && 8 * g < padAddr k off + 32) with
    | some g => some (flt .eccUncorr (word (granuleOff k g)))
    | none =>
      match mxHdrFault off 2 (s.hdrAt (padAddr k off)) with
      | some c => some (roleFault c off 0)
      | none => occupied

/-- TAKE (10 R234). An empty shelf holds the bundle. -/
def execTake (h : BitVec 4) (s : State) : Host.Outcome State Fault Refusal :=
  runMx (.take h) (fun k u s => s.takeCheck k (s.mx k u) h)
    (fun k u _ s =>
      let m := s.mx k u
      match m.shelf with
      | [] => s
      | off :: l =>
        let hd := setField (s.hdrAt (padAddr k off)) 31 24 3
        (((s.setMx k u { m with shelf := l }).poke (padAddr k off + 3) [3]).later k u 1 (.h h.toNat (some ⟨off, hd⟩)))) s

/-- The check of GIVE: an empty register, or a shelf that accepts nothing (10 R235, R236; 07 R167). -/
def State.giveCheck (s : State) (k : Nat) (u : MxUnit) (h : BitVec 4) : Option FaultInfo :=
  let m := s.mx k u
  match m.h.find? h.toNat with
  | none => some (roleFault .shelfState 0 0)
  | some x => if m.giving != some true && !(s.mx k (MxUnit.other u)).accepts then some (roleFault .shelfState x.off 0) else none

/-- GIVE (10 R235): the transition of R75, unless the request has been served already; with a full shelf the request joins the
pending queue. -/
def execGive (h : BitVec 4) (s : State) : Host.Outcome State Fault Refusal :=
  runMx (.give h) (fun k u s => s.giveCheck k u h)
    (fun k u _ s =>
      let m := s.mx k u
      let v := MxUnit.other u
      match m.h.find? h.toNat with
      | none => s
      | some x =>
        match m.giving with
        | some true => (s.setMx k u { m with giving := none }).later k u 1 (.h h.toNat none)
        | some false => s
        | none =>
          if (s.mx k v).servesNow then (s.giveStep k v x.off).later k u 1 (.h h.toNat none)
          else (s.setMx k u { m with giving := some false }).queueSeal k v x.off (.unit u)) s

/-- HREL (10 R236). -/
def execHrel (h : BitVec 4) (s : State) : Host.Outcome State Fault Refusal :=
  runMx (.hrel h)
    (fun k u s => if ((s.mx k u).h.find? h.toNat).isNone then some (roleFault .shelfState 0 0) else none)
    (fun k u _ s =>
      match (s.mx k u).h.find? h.toNat with
      | none => s
      | some x =>
        (((s.setCluster k ((s.cluster k).tagAll x.off (hExtent x.hdr) 0)).poke (padAddr k x.off + 3) [0]).later k u 1 (.h h.toNat none))) s

/-- SADD (10 R251). -/
def execSadd (d a b : Reg) (s : State) : Host.Outcome State Fault Refusal := scalarOp (.sadd d a b) d (fun m => m.sreg a + m.sreg b) s
/-- SSUB. -/
def execSsub (d a b : Reg) (s : State) : Host.Outcome State Fault Refusal := scalarOp (.ssub d a b) d (fun m => m.sreg a - m.sreg b) s
/-- SAND. -/
def execSand (d a b : Reg) (s : State) : Host.Outcome State Fault Refusal := scalarOp (.sand d a b) d (fun m => m.sreg a &&& m.sreg b) s
/-- The shift of SSHL by S(sb[7:0]) (10 R251). -/
def sshl32 (a b : Word32) : Word32 :=
  let n := (b.extractLsb' 0 8).toInt
  if 0 ≤ n then a <<< n.toNat else a >>> (-n).toNat
/-- SSHL. -/
def execSshl (d a b : Reg) (s : State) : Host.Outcome State Fault Refusal := scalarOp (.sshl d a b) d (fun m => sshl32 (m.sreg a) (m.sreg b)) s
/-- SADDI. -/
def execSaddi (d a : Reg) (imm : BitVec 32) (s : State) : Host.Outcome State Fault Refusal := scalarOp (.saddi d a imm) d (fun m => m.sreg a + imm) s
/-- SLDI. -/
def execSldi (d : Reg) (imm : BitVec 32) (s : State) : Host.Outcome State Fault Refusal := scalarOp (.sldi d imm) d (fun _ => imm) s

/-- SLD (10 R252). -/
def execSld (d a : Reg) (disp : BitVec 32) (s : State) : Host.Outcome State Fault Refusal :=
  runMx (.sld d a disp)
    (fun k u s =>
      let o := (s.mx k u).offset a disp
      match padCheck o 4 4 0 with
      | some f => some f
      | none => eccFault k 0 (s.laneReadBad k o 1 4))
    (fun k u _ s =>
      let m := s.mx k u
      let s1 := s.later k u 1 (.s d.toNat (BitVec.ofNat 32 (s.peek (padAddr k (m.offset a disp)) 4)))
      s1.setMx k u { s1.mx k u with sldFree := s.mnow + 6 }) s

/-- SST (10 R252). -/
def execSst (d a : Reg) (disp : BitVec 32) (s : State) : Host.Outcome State Fault Refusal :=
  runMx (.sst d a disp)
    (fun k u s =>
      let o := (s.mx k u).offset a disp
      match padCheck o 4 4 1 with
      | some f => some f
      | none =>
        match s.mxGuard k o 4 with
        | some f => some f
        | none => eccFault k 1 (s.laneWriteBad k o 1 4))
    (fun k u _ s =>
      let m := s.mx k u
      s.poke (padAddr k (m.offset a disp)) (leBytes 4 (m.sreg d).toNat)) s

/-- A taken branch (09 R223, 10 R253). -/
def State.branchTo (s : State) (k : Nat) (u : MxUnit) (line : BitVec 10) (bun : BitVec 5) : State :=
  s.setMx k u { s.mx k u with line := line.toNat, bundle := bun.toNat }

/-- BR (10 R253). -/
def execBr (line : BitVec 10) (bun : BitVec 5) (s : State) : Host.Outcome State Fault Refusal :=
  runMx (.br line bun) noCheck (fun k u _ s => s.branchTo k u line bun) s
/-- BRC. -/
def execBrc (d : Reg) (z : Bool) (line : BitVec 10) (bun : BitVec 5) (s : State) : Host.Outcome State Fault Refusal :=
  runMx (.brc d z line bun) noCheck (fun k u _ s => if ((s.mx k u).sreg d == 0) == z then s.branchTo k u line bun else s) s
/-- LOOP. -/
def execLoop (d : Reg) (line : BitVec 10) (bun : BitVec 5) (s : State) : Host.Outcome State Fault Refusal :=
  runMx (.loop d line bun) noCheck (fun k u _ s =>
    let v := (s.mx k u).sreg d - 1
    let s1 := s.later k u 1 (.s d.toNat v)
    if v = 0 then s1 else s1.branchTo k u line bun) s

/-- DRAIN (10 R254): its bundle is held until the unit's writes have performed; every write then stands at its bank. -/
def execDrain (s : State) : Host.Outcome State Fault Refusal := runMx .drain noCheck (fun _ _ _ s => s) s

/-- SIGNAL (10 R254). -/
def execSignal (d : Reg) (bit : BitVec 6) (s : State) : Host.Outcome State Fault Refusal :=
  runMx (.signal d bit)
    (fun k u s => let v := (s.mx k u).sreg d; if field v 31 16 != 0 then some (flt .bounds (word v.toNat)) else none)
    (fun k u _ s => s.sendBits ((s.crewRegion? k).getD 0) ((s.mx k u).sreg d).toNat (1 <<< bit.toNat)) s

/-- HALT (10 R256): the unit halts once its pending writes have landed; an M op of the same bundle completes first (entry 29). -/
def execHalt (s : State) : Host.Outcome State Fault Refusal :=
  runMx .halt noCheck (fun k u _ s =>
    let m := s.mx k u
    if m.flight.isEmpty then s.haltMx k u true else s.setMx k u { m with stopping := true }) s

/-- SNOP (09 R221). -/
def execSnop (s : State) : Host.Outcome State Fault Refusal := runMx .snop noCheck (fun _ _ _ s => s) s

/-- A header field (10 R255). -/
def hdrField (f : HdrField) (h : BitVec 256) (off : Nat) : Nat :=
  match f with
  | .state => hState h
  | .efmt => hEfmt h
  | .slayout => hSlayout h
  | .sfmt => hSfmt h
  | .sparse => hSparse h
  | .rows => hRows h
  | .cols => hCols h
  | .layout => hLayout h
  | .flags => hFlags h
  | .fill => hFill h
  | .owner => field h 223 192
  | .handle => off

/-- The header and offset of a tile register; an empty one is all zero (10 R255). -/
def Mx.tileHdr (m : Mx) (t : TileReg) : BitVec 256 × Nat :=
  match t with
  | .h n => match m.h.find? n.toNat with | some x => (x.hdr, x.off) | none => (0, 0)
  | .b n => match m.b.find? n.toNat with | some x => (x.hdr, x.off) | none => (0, 0)
  | .c n => ((m.creg n).hdr, 0)

/-- Whether a tile register holds a lost mark (10 R233). -/
def Mx.isLost (m : Mx) (t : TileReg) : Bool :=
  match t with
  | .h _ => false
  | .b n => (m.b.find? n.toNat).any (·.lost)
  | .c n => (m.creg n).lost

/-- HDRF (10 R255): it makes no header check; a register with a lost mark faults, as for any op that reads it (10 R233). -/
def execHdrf (d : Reg) (t : TileReg) (f : HdrField) (s : State) : Host.Outcome State Fault Refusal :=
  runMx (.hdrf d t f) (fun k u s => if (s.mx k u).isLost t then some (flt .eccUncorr 0 1) else none)
    (fun k u _ s =>
      let h := (s.mx k u).tileHdr t
      s.later k u 1 (.s d.toNat (BitVec.ofNat 32 (hdrField f h.1 h.2)))) s

end Sys2Proof.Machine
end

