-- ==== Sys2Proof/Machine/Mx.lean ====
section
/-! DEFINITION. How a matrix unit issues its bundles: decoding and stalls (09 R222, R223; 10 R226, R230 to R232), landing of pending
writes (R229), and the completion of M ops (R230, R233). -/
namespace Sys2Proof.Machine

/-- Tile registers that an op reads (10 R230). -/
def tileReads : Instr → List TileReg
  | .mma c h t => [.c c, .h h, t]
  | .mmaz _ h t => [.h h, t]
  | .wload _ h => [.h h]
  | .cload _ h => [.h h]
  | .cstore c _ _ _ _ _ _ => [.c c]
  | .crow _ c _ => [.c c]
  | .cput c _ _ => [.c c]
  | .btopk _ c _ _ => [.c c]
  | .hdrf _ t _ => [t]
  | _ => []

/-- Tile registers that an op writes, or to which it applies GIVE, HREL or WDROP (10 R230). -/
def tileWrites : Instr → List TileReg
  | .mma c _ _ => [.c c]
  | .mmaz c _ _ => [.c c]
  | .wload b _ => [.b b]
  | .wdrop b => [.b b]
  | .czero c _ _ _ => [.c c]
  | .cload c _ => [.c c]
  | .cput c _ _ => [.c c]
  | .take h => [.h h]
  | .give h => [.h h]
  | .hrel h => [.h h]
  | _ => []

/-- WB: an M op in flight writes the register (10 R230). -/
def Mx.wb (m : Mx) (t : TileReg) : Bool := m.flight.any (fun f => f.writes.contains t)
/-- RB: an M op in flight reads it. -/
def Mx.rb (m : Mx) (t : TileReg) : Bool := m.flight.any (fun f => f.reads.contains t)

/-- Offset and bytes of the scratchpad access of a tile operand. -/
def Mx.tileRange (m : Mx) (h : BitVec 4) : List (Nat × Nat) :=
  match m.h.find? h.toNat with
  | some x => [(x.off, hExtent x.hdr)]
  | none => []

/-- Scratchpad ranges that an op accesses at issue (10 R232). Those of a VLD or VST are of all its lanes, enabled or not.
DEDUCED (entry 51); unsafe. -/
def padRanges (m : Mx) : Instr → List (Nat × Nat)
  | .vld _ sa disp f _ => [(m.offset sa disp, 128 * vldSize f)]
  | .vst _ sa disp f _ => [(m.offset sa disp, 128 * vstSize f)]
  | .sld _ a disp => [(m.offset a disp, 4)]
  | .sst _ a disp => [(m.offset a disp, 4)]
  | .btopk _ c sb disp => [(m.offset sb disp, up32 (ceilDiv (hBricks (m.creg c).hdr) 8))]
  | .mma _ h t => m.tileRange h ++ (match t with | .h n => m.tileRange n | .b _ => [] | .c _ => [])
  | .mmaz _ h t => m.tileRange h ++ (match t with | .h n => m.tileRange n | .b _ => [] | .c _ => [])
  | .wload _ h => m.tileRange h
  | .cload _ h => m.tileRange h
  | .take _ => (match m.shelf with | o :: _ => [(o, 32)] | [] => [])
  | .cstore c sa disp e ly sl sf => [(m.offset sa disp, hExtent (storeHdr (m.creg c) e.toNat ly.toNat sl.toNat sf.toNat))]
  | _ => []

/-- Extents of the unit's unfinished CSTOREs (10 R232). -/
def Mx.storing (m : Mx) : List (Nat × Nat) :=
  m.flight.filterMap (fun f => match f.result with
    | .store o n _ _ => some (o, n)
    | .acc _ _ | .slot _ _ | .nothing => none)

/-- Whether two ranges share a byte. -/
def meets (a b : Nat × Nat) : Bool := a.1 < b.1 + b.2 && b.1 < a.1 + a.2

/-- Whether an op holds its bundle (10 R226 step 2), other than GIVE. An access waits for the unfinished CSTOREs of its own unit (10 R232), and a
CSTORE for one of either unit that still writes its buffer (R241). DEDUCED (entry 51); unsafe. -/
def State.opHeld (s : State) (k : Nat) (m : Mx) (i : Instr) : Bool :=
  (tileReads i).any m.wb || (tileWrites i).any (fun t => m.wb t || m.rb t) ||
  (padRanges m i).any (fun r => m.storing.any (meets r)) ||
  (match i with
   | .mma _ _ _ => s.mnow < m.arrayFree
   | .mmaz _ _ _ => s.mnow < m.arrayFree
   | .take _ => m.shelf.isEmpty
   | .drain => !m.flight.isEmpty
   | .halt => !m.flight.isEmpty
   | .signal _ _ => !m.storing.isEmpty
   | .cstore _ sa disp _ _ _ _ => s.storing k (m.offset sa disp) || s.promised k (m.offset sa disp) 32
   | _ => false)

/-- Whether a bundle waits for a shelf to take the handle that its GIVE passes (10 R235). -/
def State.giveHeld (s : State) (k : Nat) (u : MxUnit) (i : Instr) : Bool :=
  match i with
  | .give h =>
    let m := s.mx k u
    let w := s.mx k (MxUnit.other u)
    m.giving == some false || (m.giving == none && (m.h.find? h.toNat).isSome && w.accepts && !w.servesNow)
  | _ => false

/-- Whether a unit tries its bundle at all: it runs, nothing stops it (10 R257; 13 R313, R314, R315), and its m-cycle has come. -/
def State.mxTries (s : State) (k : Nat) (u : MxUnit) : Bool :=
  let m := s.mx k u
  let cl := s.cluster k
  m.st == .run && !m.stopping && !cl.frozen && !s.quiescing k && m.nextM ≤ s.mnow && !cl.notices.any (fun n => n.unit == some u)

/-- The ops of the bundle at MXPC, or its fault with the head that failed (09 R222, R223; 13 R317): head 0 where no single op fails to decode.
DEDUCED (entry 50); unsafe. -/
def Mx.fetch (m : Mx) : Except (Nat × FaultInfo) (List Instr) :=
  if m.badLines.contains m.line then .error (0, flt .eccUncorr 0)
  else
    let line := m.store.getD m.line 0
    match decodeBundle line m.bundle with
    | .ok ops => .ok ops
    | .error _ =>
      let hs := if lineOk line && m.bundle < lineBundles line then bundleHeads (headsFrom line (line.extractLsb' 0 5).toNat 0 0) m.bundle else []
      let head := (indexOf? (fun (x : BitVec 16 × Nat) => match decodeOp (opBitsAt line x.1 x.2) with | .ok _ => false | .error _ => true) hs).getD 0
      .error (head, flt .illegal 0)

/-- MXPC moved on past the bundle of a line (09 R223). -/
def Mx.passed (m : Mx) : Mx :=
  if m.bundle + 1 < lineBundles (m.store.getD m.line 0) then { m with bundle := m.bundle + 1 }
  else { m with line := (m.line + 1) % 1024, bundle := 0 }

/-- ILLEGAL_BUNDLE (09 R222; 13 R313, R317). -/
def execIllegalBundle (s : State) : Host.Outcome State Fault Refusal :=
  match s.actor with
  | .mx k u _ _ =>
    match (s.mx k u).fetch with
    | .error (head, f) => .next (s.mxFault k u head f)
    | .ok _ => .next s
  | .device => .fault .noUnit
  | .context _ _ => .fault .noUnit

/-- The pending write that lands next: the lowest landing bundle, then the oldest (10 R229). -/
def Mx.nextDue (m : Mx) : Option Pending :=
  match landOrder m.pend with
  | p :: _ => if p.land ≤ m.count then some p else none
  | [] => none

/-- The list without the first entry equal to a pending write. -/
def dropPend (p : Pending) : List Pending → List Pending
  | [] => []
  | q :: l => if q = p then l else q :: dropPend p l

/-- PENDING_WRITE_LAND (10 R229). -/
def execPendingWriteLand (k : Nat) (u : MxUnit) (s : State) : Host.Outcome State Fault Refusal :=
  let m := s.mx k u
  match m.nextDue with
  | none => .next s
  | some p => .next (s.setMx k u ({ m with pend := dropPend p m.pend }.land p.reg))

/-- The M op whose busy time ends first, if it has ended (10 R230). -/
def Mx.nextDone (m : Mx) (now : Nat) : Option (Nat × MFlight) :=
  let best := ((List.range m.flight.length).zip m.flight).foldl (fun (acc : Option (Nat × MFlight)) x =>
    match acc with
    | none => some x
    | some y => some (if x.2.fin < y.2.fin then x else y)) none
  match best with
  | some x => if x.2.fin ≤ now then some x else none
  | none => none

/-- What an M op leaves when it completes (10 R230, R233, R241): of a CSTORE, the doublewords that have not performed already. A unit whose
crew has ended writes nothing. A CROW with a lost accumulator reports it and gives its v register no mark. DEDUCED (entry 51); unsafe. -/
def State.mComplete (s : State) (k : Nat) (u : MxUnit) (f : MFlight) : State :=
  let m := s.mx k u
  match f.result with
  | .nothing => s
  | .acc n a => s.setMx k u { m with c := m.c.insert n { a with lost := a.lost || f.lost } }
  | .slot n b => s.setMx k u { m with b := m.b.insert n { b with lost := b.lost || f.lost } }
  | .store off n cells early =>
    if (s.crew? k).isNone then s
    else
      let s1 :=
        if early.isEmpty then s.poke (padAddr k off + 32) (memRead cells 32 (n - 32))
        else ((List.range (n / 8 - 4)).map (· + 4)).foldl (fun t i =>
          if early.contains i then t else t.poke (padAddr k off + 8 * i) (memRead cells (8 * i) 8)) s
      if f.lost then
        let h := s1.hdrAt (padAddr k off)
        s1.pokeHdr (padAddr k off) (setField h 255 240 (65535 - hCheck h))
      else s1

/-- The lost-result report of an M op (10 R233; 13 R313): ECCUNCORR, naming its bundle. -/
def lostRecord (k : Nat) (u : MxUnit) (count : Nat) (f : MFlight) : FaultRecord :=
  let info := flt .eccUncorr 0
  noticeRecord (noticeBody k u f.line f.bundle count f.head true info) info

/-- M_OP_COMPLETION (10 R230, R233): the busy bits clear and the result is there; a unit that MXHALT or its own HALT stops halts with its
last M op (13 R314). -/
def execMOpCompletion (k : Nat) (u : MxUnit) (s : State) : Host.Outcome State Fault Refusal :=
  let m := s.mx k u
  match m.nextDone s.mnow with
  | none => .next s
  | some (i, f) =>
    let s1 := (s.setMx k u { m with flight := dropAt m.flight i }).mComplete k u f
    let s2 := if f.lost then s1.postRecord k (lostRecord k u m.count f) (some u) else s1
    let m2 := s2.mx k u
    .next (if m2.stopping && m2.flight.isEmpty then s2.haltMx k u true else s2)

end Sys2Proof.Machine
end

