-- ==== Sys2Proof/Machine/Queues.lean ====
section
/-! DEFINITION. Hardware queues, futures and tasks as instructions (07 R181 to R191). -/
namespace Sys2Proof.Machine

/-- Bytes of an entry size (07 R159). -/
def EntrySize.len (e : EntrySize) : Nat := match e with | .e8 => 8 | .e16 => 16 | .e32 => 32 | .e64 => 64

/-- The wait of a queue step for a part of its ring entry away from this device, which it writes (`bs`) or reads. -/
def ringWait (r : RingPart) (bs : Option (List Byte)) (c : Nat) (x : Ctx) (s : State) : Exec :=
  let k : DxlKind := match bs with | some b => .write b | none => .read r.len
  .hold ((s.lockLines (some (.ctx c)) r.lines).send x.region (x.level == .user) false r.pa k)
    (bufferWait (r.va + word r.off) 3 r.pa (if bs.isSome then 0 else r.len))

/-- ENQ of an entry that has been read (07 R183): its release, what its ring holds away from this device, and its step. Once a part of the
ring has been written, the release has been made. -/
def enqStep (d : Reg) (handle : Word) (n : Nat) (entry : List Byte) (c : Nat) (x : Ctx) (s : State) : Exec :=
  let w := s.whoOf c x
  match s.qFind w true handle with
  | (s1, .fault f) => .trap s1 f
  | (s1, .held) => again s1
  | (s1, .ok pa) => s1.releaseThen c (if x.got.any (·.2.isEmpty) then none else some (scopeOf (qRead s1 pa).scope)) (fun s2 =>
      match s2.ringAway w x.got true handle n with
      | some r =>
        let e := if r.lines.length = 2 then markDiverted entry else entry
        ringWait r (some ((e.drop r.off).take r.len)) c x s2
      | none =>
        match s2.enqAt w handle n entry pa with
        | (s3, .ok q) => .busy (s3.setReg x d (word q.value)) .reply
        | (s3, .fault f) => .trap s3 f
        | (s3, .held) => again s3)

/-- ENQ (07 R183). -/
def execEnq (d a b : Reg) (e : EntrySize) (s : State) : Host.Outcome State Fault Refusal :=
  runSwarm (.enq d a b e) [] false [a, b] (fun c x s =>
    let src := s.reg x b
    if src.toNat % 8 != 0 then .trap s (flt .align src)
    else match s.readBytes c x src (EntrySize.len e) with
      | .error r => r
      | .ok (s1, entry) => enqStep d (s.reg x a) (EntrySize.len e) entry c x s1) s

/-- The step of DEQ, and its entry's way to the destination's parts, which is made with it (07 R160, R184; 11 R280). -/
def deqStep (d : Reg) (handle dst : Word) (n : Nat) (ps : List (Nat × Nat)) (c : Nat) (x : Ctx) (s : State) : Exec :=
  let w := s.whoOf c x
  match s.ringAway w x.got false handle n with
  | some r => ringWait r none c x s
  | none =>
    match s.deq w x.got handle n true with
    | (s1, .ok .stale) => .busy ((s1.giveUp c).setReg x d 3) .reply
    | (s1, .ok .empty) => .busy ((s1.giveUp c).setReg x d 8) .reply
    | (s1, .ok (.entry bs sc)) =>
      let r := s1.commit dst 1 (splitStore ps bs) c x
      .busy ((r.1.setReg x d 0).acquire (coreOf c) sc) (r.2.getD .reply)
    | (s1, .fault f) => .trap s1 f
    | (s1, .held) => again s1

/-- DEQ (07 R184): the destination is checked first, and where another device holds it, there. -/
def execDeq (d a b : Reg) (e : EntrySize) (s : State) : Host.Outcome State Fault Refusal :=
  runSwarm (.deq d a b e) [] false [a, b] (fun c x s =>
    let dst := s.reg x b
    if dst.toNat % 8 != 0 then .trap s (flt .align dst 0 1)
    else match s.checkAccess (s.whoOf c x) Need.put anyPlace dst (EntrySize.len e) with
      | (s1, .fault f) => s.failWrite s1 c x Need.put dst (EntrySize.len e) f
      | (s1, .held) => again s1
      | (s1, .ok ps) => (s1.probe x dst 1 ps).getD (deqStep d (s.reg x a) dst (EntrySize.len e) ps c x s1)) s

/-- QINFO (07 R184). -/
def execQinfo (d a : Reg) (s : State) : Host.Outcome State Fault Refusal :=
  runSwarm (.qinfo d a) [] false [a] (fun c x s =>
    let handle := s.reg x a
    match s.qFind (s.whoOf c x) false handle with
    | (s1, .fault f) => .trap s1 f
    | (s1, .held) => again s1
    | (s1, .ok pa) =>
      let q := qRead s1 pa
      let v := if !q.usable || q.gen != field handle 63 48 then 3 else 256 * (q.count % 2 ^ 24)
      .busy (s1.setReg x d (word v)) .reply) s

/-- A future cell found for a step (07 R186). -/
def cellFind (need : Need) (va : Word) (c : Nat) (x : Ctx) (s : State) (k : Nat → State → Exec) : Exec :=
  match s.cell (s.whoOf c x) need va with
  | (s1, .fault f) => .trap s1 f
  | (s1, .held) => again s1
  | (s1, .ok pa) =>
    match s1.reach (coreOf c) (some (.ctx c)) need.w pa 16 with
    | (s2, true) => k pa (s2.forget (coreOf c) pa 16)
    | (s2, false) => again s2

/-- LDF of either form (07 R187). -/
def ldfBody (d a : Reg) (wait : Bool) (c : Nat) (x : Ctx) (s : State) : Exec :=
  cellFind { r := true, w := false, fut := true } (s.reg x a) c x s (fun pa t =>
    let die := dieOfCluster (clusterOf c)
    if (t.peek64 (localOf pa + 8)).getLsbD 0 then
      .busy (((t.setReg x d (t.peek64 (localOf pa))).setReg x (d + 1) 0).acquire (coreOf c) .pkg) .reply
    else if !wait then .busy (t.setReg x (d + 1) 8) .reply
    else if t.deferRoom pa then
      .busy ((t.defer c pa).count (.die die x.region) 4 1) (.waiting (.future d pa))
    else .busy ((t.setReg x (d + 1) 7).count (.die die x.region) 5 1) .reply)

/-- LDF (07 R187). -/
def execLdf (d a : Reg) (s : State) : Host.Outcome State Fault Refusal :=
  runSwarm (.ldf d a) [] false [a] (ldfBody d a true) s
/-- LDF.nw (07 R187). -/
def execLdfNw (d a : Reg) (s : State) : Host.Outcome State Fault Refusal :=
  runSwarm (.ldfNw d a) [] false [a] (ldfBody d a false) s

/-- STF (07 R188). -/
def execStf (d a b : Reg) (s : State) : Host.Outcome State Fault Refusal :=
  runSwarm (.stf d a b) [] false [a, b] (fun c x s =>
    s.releaseThen c (some .pkg) (fun s1 =>
      cellFind { r := false, w := true, fut := true } (s.reg x a) c x s1 (fun pa t =>
        let r := t.fill pa (s.reg x b)
        .busy (r.1.setReg x d (word r.2)) .reply))) s

/-- FCLR (07 R188). -/
def execFclr (d a : Reg) (s : State) : Host.Outcome State Fault Refusal :=
  runSwarm (.fclr d a) [] false [a] (fun c x s =>
    cellFind { r := false, w := true, fut := true } (s.reg x a) c x s (fun pa t =>
      .busy ((t.poke (localOf pa) (List.replicate 16 0)).setReg x d 0) .reply)) s

/-- The end of SPAWN: the record is pushed on a crew's queue, or FULL (07 R189). -/
def spawnPush (d : Reg) (k : Nat) (bs : List Byte) (x : Ctx) (s : State) : Exec :=
  match s.tqPush k bs with
  | some s1 => .busy (s1.setReg x d 0) .reply
  | none => .busy (s.setReg x d 1) .reply

/-- SPAWN (07 R189). -/
def execSpawn (d a : Reg) (s : State) : Host.Outcome State Fault Refusal :=
  runSwarm (.spawn d a) [] false [a] (fun c x s =>
    let va := s.reg x a
    if va.toNat % 64 != 0 then .trap s (flt .align va)
    else s.releaseThen c (some .crew) (fun s1 =>
      match s1.readBytes c x va 64 with
      | .error e => e
      | .ok (s2, bs) => spawnPush d (clusterOf c) bs x s2)) s

/-- SPAWN.peer (07 R189). The record's alignment is tested before the rank (DEDUCED), and the record is read before the peer's crew is looked at
(DESIGN CHOICE): entry 68; unsafe. -/
def execSpawnPeer (d a b : Reg) (s : State) : Host.Outcome State Fault Refusal :=
  runSwarm (.spawnPeer d a b) [] false [a, b] (fun c x s =>
    let va := s.reg x a
    let rk := s.reg x b
    let w := s.whoOf c x
    if va.toNat % 64 != 0 then .trap s (flt .align va)
    else if s.spansizeOf c ≤ rk.toNat then .trap s (flt .bounds rk)
    else s.releaseThen c (some .pkg) (fun s1 =>
      match s1.readBytes c x va 64 with
      | .error e => e
      | .ok (s2, bs) =>
        match s2.xlate w Need.element anyPlace (peerAddr rk.toNat 0) with
        | (s3, .fault f) => .trap s3 f
        | (s3, .held) => again s3
        | (s3, .ok pa) =>
          match s3.place pa with
          | .pad k _ => spawnPush d k bs x s3
          | .hbm | .store _ _ | .mmio | .host | .hole | .remote _ => .busy (s3.setReg x d 1) .reply)) s

/-- SUSP (01 R18; 07 R190). Another device's scratchpad answers the record before Ws(d) is written and the context leaves. -/
def execSusp (d a : Reg) (s : State) : Host.Outcome State Fault Refusal :=
  runSwarm (.susp d a) [] false [a] (fun c x s =>
    let va := s.reg x a
    if va.toNat % 64 != 0 then .trap s (flt .align va 0 1)
    else s.releaseThen c (some .pkg) (fun s1 =>
      match s1.checkPart (s1.whoOf c x) Need.put anyPlace va 64 with
      | (s2, .fault f) => .trap s2 f
      | (s2, .held) => again s2
      | (s2, .ok pa) =>
        let rcd : PathOp := .store (s2.backRecord x (x.pc + 4) false)
        if s2.awayPad pa then
          .hold (s2.storePart (s2.whoOf c x) (coreOf c) pa rcd).1 (.remote ⟨0, va, 1, pa, 0, [], [], .suspend d, false⟩)
        else .gone (((s2.setReg x d 0).storePart (s2.whoOf c x) (coreOf c) pa rcd).1.leave c x false))) s

/-- SUSP.requeue (07 R190). -/
def execSuspRequeue (d : Reg) (s : State) : Host.Outcome State Fault Refusal :=
  runSwarm (.suspRequeue d) [] false [] (fun c x s =>
    s.releaseThen c (some .crew) (fun s1 =>
      match s1.tqPush (clusterOf c) (s1.backRecord x (x.pc + 4) false) with
      | some s2 => .gone ((s2.setReg x d 0).leave c x false)
      | none => .busy (s1.setReg x d 1) .reply)) s

/-- The wake of END's join step (07 R191). -/
def State.joinWake (s : State) (region : Nat) (old wake : Word) : State :=
  if old = 1 && wake.getLsbD 63 then s.sendBits region (field wake 15 0) ((1 : Word) <<< field wake 21 16) else s

/-- The join step at this device's memory. -/
def State.joinStep (s : State) (a : Nat) : State × Word × Word :=
  let old := s.peek64 a
  (s.poke64 a (old - 1), old, s.peek64 (a + 8))

/-- Where a join record may lie: a host location takes no atomic step (14 R338; 06 R128). DEDUCED (entry 73); unsafe. -/
def joinWant (p : Place) : Bool :=
  match p with
  | .host => false
  | .hbm | .pad _ _ | .store _ _ | .mmio | .hole | .remote _ => true

/-- END (07 R191). -/
def execEndTask (s : State) : Host.Outcome State Fault Refusal :=
  runSwarm .endTask [] false [] (fun c x s =>
    let va := word (field (s.contWord x) 63 16 * 256)
    if va = 0 then .gone (s.leave c x true)
    else s.releaseThen c (some .pkg) (fun s1 =>
      match s1.checkPart (s1.whoOf c x) Need.step joinWant va 16 with
      | (s2, .fault f) => .trap s2 f
      | (s2, .held) => again s2
      | (s2, .ok pa) =>
        match s2.place pa with
        | .remote _ =>
          if s2.lineBusy (coreOf c) pa then again s2
          else .hold ((s2.send x.region (x.level == .user) false pa .join).enterToken c (coreOf c) pa x.region)
            (.remote ⟨0, va, 3, pa, 16, [], [], .join, false⟩)
        | .hbm | .pad _ _ | .store _ _ | .mmio | .host | .hole =>
          match s2.reach (coreOf c) (some (.ctx c)) true pa 16 with
          | (s3, false) => again s3
          | (s3, true) =>
            let r := (s3.forget (coreOf c) pa 16).joinStep (localOf pa)
            .gone (((r.1.joinWake x.region r.2.1 r.2.2).acquire (coreOf c) .pkg).leave c x true))) s

/-- The reply of another device to SUSP's record: the context suspends. -/
def suspReply (d : Reg) (c : Nat) (x : Ctx) (s : State) : Exec := .gone ((s.setReg x d 0).leave c x false)

/-- The reply of another device to the join step: END completes. -/
def joinReply (bs : List Byte) (c : Nat) (x : Ctx) (s : State) : Exec :=
  .gone (((s.joinWake x.region (recWord bs 0) (recWord bs 1)).acquire (coreOf c) .pkg).leave c x true)

end Sys2Proof.Machine
end

