-- ==== Sys2Proof/Machine/Events.lean ====
section
/-! DEFINITION. Replies and what performs later: memory replies (06 R128, R129), store paths (11 R260), acknowledgements and losses over DXL
(14 R333, R334), back-invalidate answers (R337), descriptor refetches (12 R298), fetch fills (R331), and words that do not run
(04 R93). -/
namespace Sys2Proof.Machine

/-- The end of an instruction that a reply completes: its context is READY again (01 R9, R10), and no home slice holds a request of it. -/
def concluded (c : Nat) (x : Ctx) (e : Exec) : State :=
  match e with
  | .ok s => (finish c x x.iw (.ok (s.dropWaits c))).wake c
  | .jump s pc => (finish c x x.iw (.jump (s.dropWaits c) pc)).wake c
  | .busy s st => finish c x x.iw (.busy (s.dropWaits c) st)
  | .hold _ _ => finish c x x.iw e
  | .gone s => finish c x x.iw (.gone s)
  | .trap s f => finish c x x.iw (.trap (s.dropWaits c) f)

/-- The instruction of a context is to be made again, from the next reply on (entry 12). -/
def State.toRetry (s : State) (c : Nat) : State := s.modCtx c (fun y => { y with st := .retry })

/-- The instruction keeps bytes that a reply brought, and is made again. -/
def withBytes (s : State) (c : Nat) (x : Ctx) (pa : Nat) (bs : List Byte) : State :=
  (s.setCtx c { x with got := x.got ++ [(pa, bs)] }).toRetry c

/-- The 64 KiB page of a line. -/
def linePage (line : Nat) : Nat := line / 1024

/-- The line buffers of a die's fetch agent. -/
def State.lineBuffer (s : State) (d : Nat) : SMap (BitVec 512) := s.io.fetchBuf.getD d []

/-- A line put into a buffer of a die's fetch agent, which has 64 (14 R331). DESIGN CHOICE (entry 17); safe. -/
def State.bufferAdd (s : State) (d line : Nat) (v : BitVec 512) : State :=
  let l := cacheAdd Config.fetchLines (Config.victim s.freeUse) (s.lineBuffer d) line v
  State.usedIf { s with io := { s.io with fetchBuf := setAt s.io.fetchBuf d l } } (!cacheFits Config.fetchLines (s.lineBuffer d) line)

/-- A fill that the fetch agent of a die gives to the cores that asked: each core's page is recorded, and the line goes to every core of the die whose
page it is (14 R331). -/
def State.agentGives (s : State) (d : Nat) (ns : List Nat) (line : Nat) (v : BitVec 512) : State :=
  let s1 := ns.foldl (fun t n =>
    ((t.setCore n { t.core n with fetchPage := some (linePage line) }).icacheAdd n line v).count (.cluster (n / 4)) 5 1) s
  ((s1.cores.map (·.1)).filter (fun m => m / 256 == d && !ns.contains m && (s1.core m).fetchPage == some (linePage line))).foldl
    (fun t m => (t.icacheAdd m line v).count (.cluster (m / 4)) 6 1) s1

/-- Whether a context waits for a fill of a line away from this device. -/
def CtxState.fetches (st : CtxState) (line : Nat) : Bool :=
  match st with
  | .remote w => w.what == .fetchLine line
  | .idle | .reply | .retry | .fetching | .row _ | .glean _ _ _ _ _ | .gst _ _ _ | .yielding _ | .waiting _ => false

/-- The contexts of a die that wait for the fill of a line away from this device: their misses are joined, and one fill answers all (14 R331). -/
def State.joined (s : State) (d line : Nat) : List Nat :=
  (s.ctxs.filter (fun e => e.1 / 16384 == d && e.2.st.fetches line)).map (·.1)

/-- Each number of a list once. -/
def onceEach : List Nat → List Nat
  | [] => []
  | n :: l => if l.contains n then onceEach l else n :: onceEach l

/-- The fill of a line away from this device: every context that waits for it makes its fetch again. -/
def State.fillAway (s : State) (d line region : Nat) (v : BitVec 512) : State :=
  let cs := s.joined d line
  cs.foldl (fun t c => t.wake c)
    (((s.bufferAdd d line v).count (.die d region) 12 1).agentGives d (onceEach (cs.map coreOf)) line v)

/-- A posted write is answered: what the host has taken is in no copy of the line here any more, and what it refuses is logged, with the device's
store path as SOURCE whoever wrote it (entry 72); what a device refuses is logged there (14 R333, R338). -/
def State.acked (s : State) (pa : Nat) (refused : Bool) : State :=
  match s.place pa with
  | .host =>
    if refused then s.logFabric 4 7 0 pa else { s with io := { s.io with hostCache := s.io.hostCache.erase (localOf pa / 64) } }
  | .remote _ | .hbm | .pad _ _ | .store _ _ | .mmio | .hole => s

/-- A part of a write whose tests had passed is answered, however that is: its effect has been made, and the context goes on after the last (entry
63). -/
def partWritten (w : RemoteWait) (rest : List Nat) (c : Nat) (s : State) : State :=
  match rest with
  | [] => s.wake c
  | pa :: l => s.modCtx c (fun y => { y with st := .remote { w with pa := pa, what := .written l } })

/-- The data of a reply of another device or of the host (14 R333, R338). -/
def remoteData (w : RemoteWait) (v : BitVec 512) (c : Nat) (x : Ctx) (s : State) : State :=
  let bs := leBytes w.len v.toNat
  let plain := fun (_ : Unit) =>
    let s1 := s.deliver c x w.d w.what (w.pre ++ bs ++ w.post)
    concluded c x (.ok (if w.acq then s1.acquire (coreOf c) .sys else s1))
  match w.what with
  | .load _ => plain ()
  | .pair => plain ()
  | .bits _ _ _ => plain ()
  | .nothing => plain ()
  | .flags _ => plain ()
  | .lacr _ => plain ()
  | .status => plain ()
  | .hdr n => concluded c x (thdrDone w.d n w.va w.pa bs x s)
  | .row src i => concluded c x (trowReply w.d w.va src i w.pa bs c x s)
  | .elm i j v => concluded c x (telmReply w.d w.va i j v w.pa bs x s)
  | .join => concluded c x (joinReply bs c x s)
  | .suspend d => concluded c x (suspReply d c x s)
  | .buffer => withBytes (if w.len = 0 then s.acked w.pa false else s) c x w.pa bs
  | .agree n => (s.setCtx c { x with granted := x.granted ++ [(w.pa, n)] }).toRetry c
  | .written rest => partWritten w rest c s
  | .hostLine l => (s.hostLineAdd l v).toRetry c
  | .fetchLine l => s.fillAway (coreOf c / 256) l x.region v

/-- Whether a reply without data completes an access. -/
def bare (w : RemoteWait) : Bool :=
  match w.what with
  | .nothing | .flags _ | .suspend _ | .agree _ | .written _ => true
  | .buffer => w.len == 0
  | .load _ | .pair | .bits _ _ _ | .lacr _ | .status | .hdr _ | .row _ _ | .elm _ _ _ | .join | .hostLine _ | .fetchLine _ => false

/-- The fault of a reply (13 R308): a fetch names the PC (04 R93), and what the host refuses is XLATE_PROT with DETAIL 6 (14 R338). -/
def replyFault (w : RemoteWait) (host : Bool) (code detail off : Nat) : FaultInfo :=
  let va := w.va + word w.pre.length
  let f : FaultInfo :=
    if host then ⟨Code.xlateProt.num, va, 6, w.acc, false, 0⟩ else ⟨code, replyAddr code va off, detail, w.acc, false, 0⟩
  match w.what with
  | .fetchLine _ => { f with addr := w.va }
  | .load _ | .pair | .bits _ _ _ | .nothing | .flags _ | .lacr _ | .hdr _ | .status | .row _ _ | .elm _ _ _ | .join | .suspend _ | .buffer
  | .agree _ | .written _ | .hostLine _ => f

/-- A fault that a reply brings is taken (13 R304, R308): a protection fault takes the page out of the core's TLBs first. -/
def replyTrap (f : FaultInfo) (c : Nat) (x : Ctx) (s : State) : State :=
  concluded c x (.trap (s.forgetProt (s.whoOf c x) f) f)

/-- A failed fill is the fault of every context whose miss was joined to it (14 R331). -/
def joinedTraps (code detail off : Nat) (host : Bool) (s : State) (c : Nat) : State :=
  match s.ctx? c with
  | some x =>
    match x.st with
    | .remote w => replyTrap (replyFault w host code detail off) c x s
    | _ => s
  | none => s

/-- A reply for an access outstanding at another device or at the host. A reply without data for an access that reads is none. -/
def remoteReply (w : RemoteWait) (r : Reply) (c : Nat) (x : Ctx) (s : State) : State :=
  match r with
  | .data v => remoteData w v c x (s.dropToken (coreOf c) c)
  | .here => if bare w then remoteData w 0 c x (s.dropToken (coreOf c) c) else s
  | .fault code detail off =>
    let s1 := s.dropToken (coreOf c) c
    let host := s.place w.pa == .host
    match w.what with
    | .fetchLine l => (s1.joined (coreOf c / 256) l).foldl (joinedTraps code detail off host) s1
    | .written rest => partWritten w rest c s1
    | .load _ | .pair | .bits _ _ _ | .nothing | .flags _ | .lacr _ | .hdr _ | .status | .row _ _ | .elm _ _ _ | .join | .suspend _ | .buffer
    | .agree _ | .hostLine _ => replyTrap (replyFault w host code detail off) c x s1

/-- The reply to a context in flight (01 R9; 06 R129). An instruction that is held is made again beside it (entry 12). -/
def replied (r : Reply) (c : Nat) (x : Ctx) (s : State) : State :=
  match x.st with
  | .idle => s
  | .yielding _ => s
  | .waiting _ => s
  | .reply => s.wake c
  | .retry => s
  | .fetching => s.wake c
  | .remote w => remoteReply w r c x s
  | .row q => concluded c x (rowSecond q x s)
  | .glean d op ga ms got => concluded c x (gldReply d op ga ms got r c x s)
  | .gst d left skipped =>
    let q := gstReply d left skipped r x s
    if q.2.2 then q.1.wake c else q.1.modCtx c (fun y => { y with st := q.2.1 })

/-- MEMORY_REPLY (06 R129). -/
def execMemoryReply (c : Nat) (r : Reply) (s : State) : Host.Outcome State Fault Refusal :=
  match s.ctx? c with
  | some x => .next (replied r c x s)
  | none => .next s

/-- Whether an earlier entry of a store path lies in the same line: accesses to one line keep their order (11 R260). -/
def earlierInLine (l : List PathEntry) (n : Nat) (e : PathEntry) : Bool := (l.take n).any (fun f => f.pa / 64 == e.pa / 64)

/-- STORE_PATH_PERFORM (11 R260): one entry of a core's store path performs at its home slice, unless it is held there. -/
def execStorePathPerform (core n : Nat) (s : State) : Host.Outcome State Fault Refusal :=
  let l := (s.core core).path
  match l[n]? with
  | none => .next s
  | some e =>
    if earlierInLine l n e then .next s
    else match s.perform core e with
      | (s1, true) => .next (s1.setCore core { s1.core core with path := dropAt l n })
      | (s1, false) => .next s1

/-- Whether a posted write to an address awaits an answer from outside. -/
def State.posts (s : State) (pa : Nat) : Bool :=
  match s.place pa with
  | .host | .remote _ => true
  | .hbm | .pad _ _ | .store _ _ | .mmio | .hole => false

/-- Whether an entry of a store path stands for an operation that a reply ends. -/
def PathOp.isToken (op : PathOp) : Bool :=
  match op with
  | .token _ => true
  | .store _ | .bits _ _ | .lacZero | .lacAdd _ _ => false

/-- The answer to entry n of a core's store path. -/
def State.ackPath (s : State) (core n : Nat) (refused : Bool) : State :=
  let l := (s.core core).path
  match l[n]? with
  | none => s
  | some e =>
    if earlierInLine l n e || e.op.isToken || !s.posts e.pa then s
    else (s.setCore core { s.core core with path := dropAt l n }).acked e.pa refused

/-- The answer to posted write n of a copy engine: a copy that has ended completes with its last one (11 R276). -/
def State.ackEngine (s : State) (e n : Nat) (refused : Bool) : State :=
  let l := (s.engine e).posted
  match l[n]? with
  | none => s
  | some p =>
    if (l.take n).any (fun q => q.pa / 64 == p.pa / 64) then s
    else ((s.setEngine e { s.engine e with posted := dropAt l n }).acked p.pa refused).endCopies e

/-- Whether an answer refuses a write. -/
def Reply.refuses (r : Reply) : Bool :=
  match r with
  | .fault _ _ _ => true
  | .data _ | .here => false

/-- The answer to write n of a ring entry by an agent that is no instruction: its step goes on, or takes the fault that it brings. -/
def State.ackRing (s : State) (n : Nat) (r : Reply) : State :=
  match s.io.rings[n]? with
  | none => s
  | some q =>
    if q.answer.isSome then s
    else
      let t := { s with io := { s.io with rings := setAt s.io.rings n { q with answer := some r } } }
      if Reply.refuses r then t else t.acked q.pa false

/-- POSTED_WRITE_ACK (14 R333, R338): another device, or the host, answers a write that it was sent. -/
def execPostedWriteAck (from_ : Poster) (n : Nat) (r : Reply) (s : State) : Host.Outcome State Fault Refusal :=
  match from_ with
  | .core k => .next (s.ackPath k n (Reply.refuses r))
  | .engine e => .next (s.ackEngine e n (Reply.refuses r))
  | .ring => .next (s.ackRing n r)

/-- The failed reads of the members on a lost device (14 R334). -/
def lostReads (dev : Nat) (ms : List Member) (got : List MemberRead) : List MemberRead :=
  (ms.filter (fun m => m.here && m.dev == dev && !hasRead got m)).map (fun m => ⟨m.rank, 0, some Code.peerGone.num⟩)

/-- The parts of a write that a lost device will not answer are answered (14 R334; entry 63). -/
def lostParts (dev : Nat) (what : RemoteWhat) : RemoteWhat :=
  match what with
  | .written rest => .written (rest.filter (fun pa => pa / Config.localEnd != dev))
  | .load _ | .pair | .bits _ _ _ | .nothing | .flags _ | .lacr _ | .hdr _ | .status | .row _ _ | .elm _ _ _ | .join | .suspend _ | .buffer
  | .agree _ | .hostLine _ | .fetchLine _ => what

/-- What the loss of a device does to a context that waits on it (14 R334). -/
def lostContext (dev : Nat) (s : State) (c : Nat) : State :=
  match s.ctx? c with
  | none => s
  | some x =>
    match x.st with
    | .remote w =>
      let v := { w with what := lostParts dev w.what }
      if w.pa / Config.localEnd = dev then remoteReply v (.fault Code.peerGone.num 0 0) c x s else s.setCtx c { x with st := .remote v }
    | .glean d op ga ms got =>
      let lost := lostReads dev ms got
      if lost.isEmpty then s else concluded c x (gldReply d op ga ms (got ++ lost) .here c x s)
    | .gst d left skipped =>
      let gone := left.filter (fun m => m.dev == dev)
      let rest := left.filter (fun m => m.dev != dev)
      let sk := skipped ++ gone.map (·.rank)
      if rest.isEmpty then (s.setReg x d (gstWord sk)).wake c else s.setCtx c { x with st := .gst d rest sk }
    | .idle | .reply | .retry | .fetching | .row _ | .yielding _ | .waiting _ => s

/-- The unacknowledged writes of a core to a lost device counted as acknowledged, each logged as lost (14 R334, R342). -/
def lostWrites (dev : Nat) (s : State) (core : Nat) : State :=
  let k := s.core core
  let mine := fun (e : PathEntry) => s.place e.pa == .remote dev && !e.op.isToken
  (k.path.filter mine).foldl (fun t e => t.logFabric 4 5 0 e.pa) (s.setCore core { k with path := k.path.filter (fun e => !mine e) })

/-- The same for the posted writes of a copy engine, whose SOURCE is the device's store path too. DEDUCED (entry 72); unsafe. -/
def lostPosts (dev : Nat) (s : State) (e : Nat) : State :=
  let en := s.engine e
  let mine := fun (p : Posted) => s.place p.pa == .remote dev
  ((en.posted.filter mine).foldl (fun t p => t.logFabric 4 5 0 p.pa)
    (s.setEngine e { en with posted := en.posted.filter (fun p => !mine p) })).endCopies e

/-- What an element asked at a physical address: whether it was of the destination, and the virtual address of the part. -/
def askedEnd (s : State) (e : Nat) (cmd : CopyCmd) (pa : Nat) : Bool × Word :=
  match (s.checkAccess (cmd.who s e) Need.load anyPlace (cmd.src cmd.next) cmd.esz).2,
      (s.checkAccess (cmd.who s e) Need.element anyPlace (cmd.dst cmd.next) cmd.esz).2 with
  | .ok ps, .ok qs =>
    (match s.elemNeed cmd ps qs with
     | some a => (a.test, a.addr cmd)
     | none => (false, cmd.src cmd.next))
  | .ok ps, _ => if ps.any (fun p => p.1 == pa) then (false, cmd.src cmd.next + word (partOff ps pa)) else (true, cmd.dst cmd.next)
  | _, _ => (false, cmd.src cmd.next)

/-- A copy that waits for a lost device's answer stops with PEERGONE (07 R174; 14 R334). -/
def lostCopyAt (dev : Nat) (s : State) (e i : Nat) : State :=
  match (s.engine e).queue[i]? with
  | none => s
  | some cmd =>
    match cmd.asked with
    | none => s
    | some pa =>
      if s.place pa != .remote dev then s
      else
        let a := askedEnd s e cmd pa
        (s.count (.die (e / 32) cmd.region) 8 1).endCopy e i { cmd with asked := none, got := [] }
          (some (stopWords e cmd a.1 (flt .peerGone a.2)))

/-- The copies of an engine that wait for a lost device, each stopped; the last of the queue first, so that places stand. -/
def lostCopy (dev : Nat) (s : State) (e : Nat) : State :=
  (List.range (s.engine e).queue.length).reverse.foldl (fun t i => lostCopyAt dev t e i) s

/-- The writes of ring entries at a lost device fault PEERGONE (14 R334). -/
def lostRings (dev : Nat) (s : State) : State :=
  { s with io := { s.io with rings := s.io.rings.map (fun r =>
      if s.place r.pa == .remote dev && r.answer.isNone then { r with answer := some (.fault Code.peerGone.num 0 0) } else r) } }

/-- DEVICE_LOST (14 R334). -/
def execDeviceLost (dev : Nat) (s : State) : Host.Outcome State Fault Refusal :=
  if dev = s.ctl.devid then .next s
  else
    let s0 := (s.cores.map (·.1)).foldl (lostWrites dev) s
    let s1 := (s0.engines.map (·.1)).foldl (fun t e => lostCopy dev (lostPosts dev t e) e) s0
    let s2 := lostRings dev ((s1.ctxs.map (·.1)).foldl (lostContext dev) s1)
    .next { s2 with gldms := s2.gldms.map (fun q => { q with got := q.got ++ lostReads dev q.members q.got }),
                    io := { s2.io with promises := s2.io.promises.filter (fun p => p.dev != dev), lostDevs := if s2.io.lostDevs.contains dev then s2.io.lostDevs else dev :: s2.io.lostDevs } }

/-- BACK_INVALIDATE_ANSWER (14 R337): the host gives up its copy of a line, and the write held at the home slice can perform. -/
def execBackInvalidateAnswer (line : Nat) (s : State) : Host.Outcome State Fault Refusal :=
  .next (if s.io.snoops.contains line then
      State.flushWrites
        { s with io := { s.io with snoops := s.io.snoops.filter (· != line), hostHolds := s.io.hostHolds.filter (· != line) } }
    else s)

/-- DESCRIPTOR_REFETCH (07 R182; 12 R298): a descriptor is in the directory again. -/
def execDescriptorRefetch (pa : Nat) (s : State) : Host.Outcome State Fault Refusal :=
  .next { s with spilled := s.spilled.filter (· != pa) }

/-- CXL_CACHE_SNOOP (14 R338): a host snoop takes a line from the host-line cache. -/
def execCxlCacheSnoop (line : Nat) (s : State) : Host.Outcome State Fault Refusal :=
  .next { s with io := { s.io with hostCache := s.io.hostCache.erase line } }

/-- ILLEGAL_WORD (04 R93): a word that decodes to no instruction faults, TRAPADDR the PC. -/
def execIllegalWord (w : Word32) (s : State) : Host.Outcome State Fault Refusal :=
  match s.actor with
  | .context c _ =>
    match s.ctx? c, decodeSwarm w with
    | some x, .error _ => .next (takeTrap s c x (flt .illegal x.pc) w)
    | some _, .ok _ => .next s
    | none, _ => .fault .noContext
  | .device => .fault .noContext
  | .mx _ _ _ _ => .fault .noContext

end Sys2Proof.Machine
end

