-- ==== Sys2Proof/Machine/Fetch.lean ====
section
/-! DEFINITION. Issue of a core's next context (01 R10) and instruction fetch (04 R93; 11 R278; 14 R331): FETCH_FILL, FETCH_FAULT. -/
namespace Sys2Proof.Machine

/-- Whether a context may issue now (01 R9, R10): READY, not HELD, 8 s-cycles after its latest issue. -/
def State.readyCtx (s : State) (c : Nat) (x : Ctx) : Bool :=
  x.st == .idle && !x.held && decide ((s.core (coreOf c)).issueAt.getD (slotOf c) 0 ≤ s.now) && !s.quiescing (clusterOf c)

/-- The distance of a slot in issue order from the one that issued last (01 R10). -/
def slotTurn (last slot : Nat) : Nat := (slot + 127 - last) % 64

/-- The nearest of the ready contexts in issue order. -/
def nearest (last : Nat) : List Nat → Option Nat
  | [] => none
  | c :: l =>
    match nearest last l with
    | none => some c
    | some d => if slotTurn last (slotOf d) < slotTurn last (slotOf c) then some d else some c

/-- The context from which a core issues in this s-cycle (01 R10). -/
def State.nextReady (s : State) (n : Nat) : Option Nat :=
  let k := s.core n
  if s.now < k.nextIssue then none
  else nearest k.lastSlot ((s.ctxs.filter (fun e => coreOf e.1 == n && s.readyCtx e.1 e.2)).map (·.1))

/-- A context's issue slot is used (01 R10; 15 R360). -/
def State.issued (s : State) (c : Nat) : State :=
  let n := coreOf c
  let k := s.core n
  (s.setCore n { k with lastSlot := slotOf c, nextIssue := s.now + 1, issueAt := k.issueAt.insert (slotOf c) (s.now + 8) }).count
    (.cluster (clusterOf c)) 1 1

/-- Where an instruction fetch stands. -/
inductive Fetched where
  | word (w : Word32)
  | fill (line : Nat)         -- the I-cache misses a line of this device
  | away (pa : Nat)           -- it misses a line of another device or of the host
  | failed (f : FaultInfo)
  | held
  deriving DecidableEq, Repr

/-- The word at an address within a line. -/
def lineWord (v : BitVec 512) (pa : Nat) : Word32 := BitVec.ofNat 32 (leNat (lineBytes v (pa % 64) 4))

/-- Whether a home slice holds a fetch of a context at a local address (11 R275; 12 R298). -/
def State.sliceHolds (s : State) (c a : Nat) : Bool :=
  match placeLocal a with
  | .hbm => s.heldAt (some (.ctx c)) (a / 64)
  | .pad _ _ | .store _ _ | .mmio | .host | .hole | .remote _ => false

/-- The fetch at a context's PC (04 R93 step 1; 13 R302, R303, R317). A fault's TRAPADDR is the PC. A line with an uncorrectable error is
never cached: another word of it is read where it lies. DEDUCED (entry 49); unsafe. -/
def State.fetch (s : State) (c : Nat) (x : Ctx) : State × Fetched :=
  match s.xlate (s.whoOf c x) Need.fetch anyPlace x.pc with
  | (s1, .fault f) => (s1, .failed { f with addr := x.pc })
  | (s1, .held) => (s1, .held)
  | (s1, .ok pa) =>
    match (s1.core (coreOf c)).icache.find? (pa / 64) with
    | some v => (s1, .word (lineWord v pa))
    | none =>
      let a := localOf pa
      match s1.place pa with
      | .hbm | .pad _ _ | .store _ _ =>
        if badIn s1.bad a 4 then (s1, .failed (flt .eccUncorr x.pc 0 2))
        else if badIn s1.bad (a / 64 * 64) 64 then
          (if s1.sliceHolds c a then (s1.waitAt (some (.ctx c)) (a / 64), .held) else (s1.count (.cluster (coreOf c / 4)) 5 1, .word (BitVec.ofNat 32 (s1.peek a 4))))
        else (s1, .fill (pa / 64))
      | .host | .remote _ => (s1, if ((s1.lineBuffer (coreOf c / 256)).find? (pa / 64)).isSome then .fill (pa / 64) else .away pa)
      | .mmio | .hole => (s1, .failed (flt .xlateProt x.pc 6 2))

/-- A fill of the die's fetch agent, asked for by a core (14 R331): the line goes to every core of the die whose page is its page.
DEDUCED (entry 60); unsafe. -/
def State.fetchFill (s : State) (n line : Nat) (region : Nat) : State :=
  let d := n / 256
  match (s.lineBuffer d).find? line with
  | some v => s.agentGives d [n] line v
  | none =>
    let v := s.lineAt (line % (Config.localEnd / 64))
    ((s.bufferAdd d line v).count (.die d region) 12 1).agentGives d [n] line v

/-- Whether the home slice holds the fill of a line that a context asks for: the agent of its die has it in no buffer, and a copy's registration
or an earlier request stands there (11 R275; 12 R298). -/
def State.fillHeld (s : State) (c line : Nat) : Bool :=
  ((s.lineBuffer (coreOf c / 256)).find? line).isNone && s.sliceHolds c (localOf (64 * line))

/-- FETCH_FILL (14 R331): the fill of the line that the core's next context misses. -/
def execFetchFill (core line : Nat) (s : State) : Host.Outcome State Fault Refusal :=
  match s.nextReady core with
  | none => .next s
  | some c =>
    match s.ctx? c with
    | none => .next s
    | some x =>
      let q := s.fetch c x
      .next (if q.2 = .fill line && !q.1.fillHeld c line then q.1.fetchFill core line x.region else s)

/-- FETCH_FAULT (04 R93 step 1): WORD is 0, since no word was read. -/
def execFetchFault (s : State) : Host.Outcome State Fault Refusal :=
  match s.actor with
  | .context c _ =>
    (match s.ctx? c with
     | some x =>
       (match s.fetch c x with
        | (s1, .failed f) => .next (takeTrap (s1.dropWaits c) c x f 0)
        | _ => .next s)
     | none => .fault .noContext)
  | .device => .fault .noContext
  | .mx _ _ _ _ => .fault .noContext

end Sys2Proof.Machine
end

