-- ==== Sys2Proof/Machine/Integer.lean ====
section
/-! DEFINITION. Integer, immediate and mixing instructions (chapter 05, R104 to R114). -/
namespace Sys2Proof.Machine

/-- High 64 bits of the signed product (05 R104). -/
def mulHigh (a b : Word) : Word := BitVec.ofInt 64 (a.toInt * b.toInt / 2 ^ 64)
/-- High 64 bits of the unsigned product. -/
def mulHighU (a b : Word) : Word := word (a.toNat * b.toNat / 2 ^ 64)
/-- Signed quotient toward zero; division by zero gives all ones (05 R106). -/
def divS (a b : Word) : Word := if b = 0 then BitVec.allOnes 64 else a.sdiv b
/-- Unsigned quotient. -/
def divU (a b : Word) : Word := if b = 0 then BitVec.allOnes 64 else a / b
/-- Signed remainder, with the sign of the dividend. -/
def remS (a b : Word) : Word := if b = 0 then a else a.srem b
/-- Unsigned remainder. -/
def remU (a b : Word) : Word := if b = 0 then a else a % b
/-- Leading zeros, 64 for 0. -/
def leading (a : Word) : Word := word (if a = 0 then 64 else 63 - Nat.log2 a.toNat)
/-- Trailing zeros, 64 for 0. -/
def trailing (a : Word) : Word := word (((List.range 64).find? (fun i => a.getLsbD i)).getD 64)
/-- One bits. -/
def ones (a : Word) : Word := word ((List.range 64).filter (fun i => a.getLsbD i)).length
/-- Signed minimum and maximum, unsigned minimum and maximum (05 R104). -/
def minS (a b : Word) : Word := if a.sle b then a else b
/-- Signed maximum. -/
def maxS (a b : Word) : Word := if b.sle a then a else b
/-- Unsigned minimum. -/
def minU (a b : Word) : Word := if a ≤ b then a else b
/-- Unsigned maximum. -/
def maxU (a b : Word) : Word := if b ≤ a then a else b
/-- A shift amount Ws(b)[5:0] (05 R107). -/
def amount (b : Word) : Nat := field b 5 0

/-- Mix of 05 R112. -/
def mix (x k c m : Word) : Word :=
  let x := x ^^^ (k + c)
  let p := x.toNat * m.toNat
  let x := word p ^^^ word (p / 2 ^ 64)
  x ^^^ (x >>> 31)

/-- Rounds of Mix with the key turned left by `r` after each (05 R113, R114). -/
def mixRounds (r : Nat) : List (Word × Word) → Word → Word → Word
  | [], x, _ => x
  | (c, m) :: l, x, k => mixRounds r l (mix x k c m) (rotL k r)

/-- CRNG (05 R113). -/
def crng (key ctr : Word) : Word :=
  let m0 : Word := 0xA3C59AC2F1B74E2D
  let m1 : Word := 0x8F1B6D35C47A9E61
  let x := mixRounds 17 [(0x5A173C9E0B84D2F1, m0), (0x16E4A78D39C05B2F, m1), (0xC2B90F5E7A13864D, m0), (0x7D40E6B195AC2F83, m1),
    (0x3B8F52D7C06E19A5, m0), (0xE9651AF34D28B07C, m1)] ctr key
  x ^^^ (x >>> 29)

/-- HASH (05 R114). -/
def hash (v seed : Word) : Word :=
  let m : Word := 0xB4E38C175AD962F5
  mixRounds 29 [(0x2C6AF0935E71B4D8, m), (0x9147DB2E86F03A5C, m), (0x63F81C5AB92DE047, m), (0xD85E47A10C3BF96E, m)] v
    (seed ^^^ 0x4F92A6E0D3178B5C)

/-- The top bit of a field lo, width, cut off at bit 63 (05 R109). -/
def fieldTop (lo width : Nat) : Nat := Nat.min (lo + width) 64 - 1

/-- ADD (05 R104). -/
def execAdd (d a b : Reg) (s : State) : Host.Outcome State Fault Refusal :=
  runSwarm (.add d a b) [] false [a, b] (result d (fun x s => s.reg x a + s.reg x b)) s

/-- SUB (05 R104). -/
def execSub (d a b : Reg) (s : State) : Host.Outcome State Fault Refusal :=
  runSwarm (.sub d a b) [] false [a, b] (result d (fun x s => s.reg x a - s.reg x b)) s

/-- MUL (05 R104). -/
def execMul (d a b : Reg) (s : State) : Host.Outcome State Fault Refusal :=
  runSwarm (.mul d a b) [] false [a, b] (result d (fun x s => s.reg x a * s.reg x b)) s

/-- MULH (05 R104). -/
def execMulh (d a b : Reg) (s : State) : Host.Outcome State Fault Refusal :=
  runSwarm (.mulh d a b) [] false [a, b] (result d (fun x s => mulHigh (s.reg x a) (s.reg x b))) s

/-- MULHU (05 R104). -/
def execMulhu (d a b : Reg) (s : State) : Host.Outcome State Fault Refusal :=
  runSwarm (.mulhu d a b) [] false [a, b] (result d (fun x s => mulHighU (s.reg x a) (s.reg x b))) s

/-- DIV (05 R106). -/
def execDiv (d a b : Reg) (s : State) : Host.Outcome State Fault Refusal :=
  runSwarm (.div d a b) [] false [a, b] (result d (fun x s => divS (s.reg x a) (s.reg x b))) s

/-- DIVU (05 R106). -/
def execDivu (d a b : Reg) (s : State) : Host.Outcome State Fault Refusal :=
  runSwarm (.divu d a b) [] false [a, b] (result d (fun x s => divU (s.reg x a) (s.reg x b))) s

/-- REM (05 R106). -/
def execRem (d a b : Reg) (s : State) : Host.Outcome State Fault Refusal :=
  runSwarm (.rem d a b) [] false [a, b] (result d (fun x s => remS (s.reg x a) (s.reg x b))) s

/-- REMU (05 R106). -/
def execRemu (d a b : Reg) (s : State) : Host.Outcome State Fault Refusal :=
  runSwarm (.remu d a b) [] false [a, b] (result d (fun x s => remU (s.reg x a) (s.reg x b))) s

/-- AND (05 R104). -/
def execAnd (d a b : Reg) (s : State) : Host.Outcome State Fault Refusal :=
  runSwarm (.and d a b) [] false [a, b] (result d (fun x s => s.reg x a &&& s.reg x b)) s

/-- OR (05 R104). -/
def execOr (d a b : Reg) (s : State) : Host.Outcome State Fault Refusal :=
  runSwarm (.or d a b) [] false [a, b] (result d (fun x s => s.reg x a ||| s.reg x b)) s

/-- XOR (05 R104). -/
def execXor (d a b : Reg) (s : State) : Host.Outcome State Fault Refusal :=
  runSwarm (.xor d a b) [] false [a, b] (result d (fun x s => s.reg x a ^^^ s.reg x b)) s

/-- SHL (05 R107). -/
def execShl (d a b : Reg) (s : State) : Host.Outcome State Fault Refusal :=
  runSwarm (.shl d a b) [] false [a, b] (result d (fun x s => (s.reg x a) <<< amount (s.reg x b))) s

/-- SHR (05 R107). -/
def execShr (d a b : Reg) (s : State) : Host.Outcome State Fault Refusal :=
  runSwarm (.shr d a b) [] false [a, b] (result d (fun x s => (s.reg x a) >>> amount (s.reg x b))) s

/-- SRA (05 R107). -/
def execSra (d a b : Reg) (s : State) : Host.Outcome State Fault Refusal :=
  runSwarm (.sra d a b) [] false [a, b] (result d (fun x s => (s.reg x a).sshiftRight (amount (s.reg x b)))) s

/-- ROT (05 R107). -/
def execRot (d a b : Reg) (s : State) : Host.Outcome State Fault Refusal :=
  runSwarm (.rot d a b) [] false [a, b] (result d (fun x s => rotR (s.reg x a) (amount (s.reg x b)))) s

/-- MIN (05 R104). -/
def execMin (d a b : Reg) (s : State) : Host.Outcome State Fault Refusal :=
  runSwarm (.min d a b) [] false [a, b] (result d (fun x s => minS (s.reg x a) (s.reg x b))) s

/-- MAX (05 R104). -/
def execMax (d a b : Reg) (s : State) : Host.Outcome State Fault Refusal :=
  runSwarm (.max d a b) [] false [a, b] (result d (fun x s => maxS (s.reg x a) (s.reg x b))) s

/-- MINU (05 R104). -/
def execMinu (d a b : Reg) (s : State) : Host.Outcome State Fault Refusal :=
  runSwarm (.minu d a b) [] false [a, b] (result d (fun x s => minU (s.reg x a) (s.reg x b))) s

/-- MAXU (05 R104). -/
def execMaxu (d a b : Reg) (s : State) : Host.Outcome State Fault Refusal :=
  runSwarm (.maxu d a b) [] false [a, b] (result d (fun x s => maxU (s.reg x a) (s.reg x b))) s

/-- SLT (05 R104). -/
def execSlt (d a b : Reg) (s : State) : Host.Outcome State Fault Refusal :=
  runSwarm (.slt d a b) [] false [a, b] (result d (fun x s => bool64 ((s.reg x a).slt (s.reg x b)))) s

/-- SLTU (05 R104). -/
def execSltu (d a b : Reg) (s : State) : Host.Outcome State Fault Refusal :=
  runSwarm (.sltu d a b) [] false [a, b] (result d (fun x s => bool64 ((s.reg x a).ult (s.reg x b)))) s

/-- HASH (05 R114). -/
def execHash (d a b : Reg) (s : State) : Host.Outcome State Fault Refusal :=
  runSwarm (.hash d a b) [] false [a, b] (result d (fun x s => hash (s.reg x a) (s.reg x b))) s

/-- CRNG (05 R113). -/
def execCrng (d a b : Reg) (s : State) : Host.Outcome State Fault Refusal :=
  runSwarm (.crng d a b) [] false [a, b] (result d (fun x s => crng (s.reg x a) (s.reg x b))) s

/-- CLZ (05 R104). -/
def execClz (d a : Reg) (s : State) : Host.Outcome State Fault Refusal :=
  runSwarm (.clz d a) [] false [a] (result d (fun x s => leading (s.reg x a))) s

/-- CTZ (05 R104). -/
def execCtz (d a : Reg) (s : State) : Host.Outcome State Fault Refusal :=
  runSwarm (.ctz d a) [] false [a] (result d (fun x s => trailing (s.reg x a))) s

/-- POPC (05 R104). -/
def execPopc (d a : Reg) (s : State) : Host.Outcome State Fault Refusal :=
  runSwarm (.popc d a) [] false [a] (result d (fun x s => ones (s.reg x a))) s

/-- SEL (05 R105). -/
def execSel (d a b c : Reg) (s : State) : Host.Outcome State Fault Refusal :=
  runSwarm (.sel d a b c) [] false [a, b, c] (result d (fun x s => if s.reg x c = 0 then s.reg x b else s.reg x a)) s

/-- ADDI (05 R108). -/
def execAddi (d a : Reg) (i : BitVec 16) (s : State) : Host.Outcome State Fault Refusal :=
  runSwarm (.addi d a i) [] false [a] (result d (fun x s => s.reg x a + sext16 i)) s

/-- ANDI (05 R108). -/
def execAndi (d a : Reg) (i : BitVec 16) (s : State) : Host.Outcome State Fault Refusal :=
  runSwarm (.andi d a i) [] false [a] (result d (fun x s => s.reg x a &&& zext16 i)) s

/-- ORI (05 R108). -/
def execOri (d a : Reg) (i : BitVec 16) (s : State) : Host.Outcome State Fault Refusal :=
  runSwarm (.ori d a i) [] false [a] (result d (fun x s => s.reg x a ||| zext16 i)) s

/-- XORI (05 R108). -/
def execXori (d a : Reg) (i : BitVec 16) (s : State) : Host.Outcome State Fault Refusal :=
  runSwarm (.xori d a i) [] false [a] (result d (fun x s => s.reg x a ^^^ zext16 i)) s

/-- SLTI (05 R108). -/
def execSlti (d a : Reg) (i : BitVec 16) (s : State) : Host.Outcome State Fault Refusal :=
  runSwarm (.slti d a i) [] false [a] (result d (fun x s => bool64 ((s.reg x a).slt (sext16 i)))) s

/-- SHLI (05 R107). -/
def execShli (d a : Reg) (n : BitVec 6) (s : State) : Host.Outcome State Fault Refusal :=
  runSwarm (.shli d a n) [] false [a] (result d (fun x s => (s.reg x a) <<< n.toNat)) s

/-- SHRI (05 R107). -/
def execShri (d a : Reg) (n : BitVec 6) (s : State) : Host.Outcome State Fault Refusal :=
  runSwarm (.shri d a n) [] false [a] (result d (fun x s => (s.reg x a) >>> n.toNat)) s

/-- SRAI (05 R107). -/
def execSrai (d a : Reg) (n : BitVec 6) (s : State) : Host.Outcome State Fault Refusal :=
  runSwarm (.srai d a n) [] false [a] (result d (fun x s => (s.reg x a).sshiftRight n.toNat)) s

/-- ROTI (05 R107). -/
def execRoti (d a : Reg) (n : BitVec 6) (s : State) : Host.Outcome State Fault Refusal :=
  runSwarm (.roti d a n) [] false [a] (result d (fun x s => rotR (s.reg x a) n.toNat)) s

/-- LDHI (05 R110). -/
def execLdhi (d : Reg) (i : BitVec 16) (s : State) : Host.Outcome State Fault Refusal :=
  runSwarm (.ldhi d i) [] false [d] (result d (fun x s => (s.reg x d) <<< 16 ||| zext16 i)) s

/-- ADDPC (05 R111). -/
def execAddpc (d : Reg) (i : BitVec 16) (s : State) : Host.Outcome State Fault Refusal :=
  runSwarm (.addpc d i) [] false [] (result d (fun x _ => x.pc + sext16 i <<< 16)) s

/-- BFX (05 R109): `w` holds width - 1. -/
def execBfx (d a : Reg) (w l : BitVec 6) (s : State) : Host.Outcome State Fault Refusal :=
  runSwarm (.bfx d a w l) [] false [a]
    (result d (fun x s => word (field (s.reg x a) (fieldTop l.toNat (w.toNat + 1)) l.toNat))) s

/-- BFI (05 R109). -/
def execBfi (d a : Reg) (w l : BitVec 6) (s : State) : Host.Outcome State Fault Refusal :=
  runSwarm (.bfi d a w l) [] false [a, d]
    (result d (fun x s => setField (s.reg x d) (fieldTop l.toNat (w.toNat + 1)) l.toNat (s.reg x a).toNat)) s

end Sys2Proof.Machine
end

