-- ==== Sys2Proof/Machine/Links.lean ====
section
/-! DEFINITION. Accesses from outside the device: of other devices over DXL (14 R332 to R334), RDMA (R335), and the host's CXL.mem and BAR 2
accesses (R337). -/
namespace Sys2Proof.Machine

/-- What the part answers outside. -/
def State.tell (s : State) (r : HostAnswer) : State := { s with hostOut := r }

/-- CAUSE of a drop in the fabric error log, by the fault that refused the write (14 R342). DESIGN CHOICE (entry 59); safe. -/
def causeOf (code : Nat) : Nat :=
  if code = Code.tileGuard.num then 1
  else if code = Code.eccUncorr.num then 2
  else if code = Code.peerGone.num then 3
  else if code = Code.wsLive.num then 4
  else (Config.dropCause code).toNat

/-- The checks made at this device for an access of another (14 R332, R333): code, DETAIL and distance of the failure. -/
def State.targetFault (s : State) (w : Who) (need : Need) (a n : Nat) : Option (Nat × Nat × Nat) :=
  let pa := s.phys a
  match placeLocal a with
  | .hbm | .pad _ _ =>
    (match peerCheck s w need 0 pa false with
     | .fault f => some (f.code, f.detail, 0)
     | .ok _ | .held =>
       match guardBad s need pa n with
       | some d => some (Code.tileGuard.num, 0, d)
       | none => (eccBad s w need pa n).map (fun d => (Code.eccUncorr.num, 0, d)))
  | .store _ _ | .mmio | .host | .hole | .remote _ => some (Code.xlateProt.num, 6, 0)

/-- Whether an access from outside can perform at its point of coherence now (11 R275; 12 R298; 14 R337). -/
def State.outsideFree (s : State) (writes : Bool) (a n : Nat) : State × Bool :=
  let ls := s.hbmLines (s.phys a) n
  if writes then s.ownLines none ls else s.readLines none ls

/-- An access of another device at a range: refused, held, or performed by `k`. -/
def State.atTarget (s : State) (w : Who) (need : Need) (a n : Nat) (k : State → State × HostAnswer) : State × Option HostAnswer :=
  match s.targetFault w need a n with
  | some (c, d, o) => (s, some (.fault c d o))
  | none =>
    match s.outsideFree need.w a n with
    | (s1, true) => let r := k s1; (r.1, some r.2)
    | (s1, false) => (s1, none)

/-- The second step of TROW or TELM for another device: its status word, or its fault. -/
def rowAnswer (k off : Nat) (r : RowStep) (s : State) : State × HostAnswer :=
  match s.rowStep k off r with
  | .ok (s1, st) => (s1, .data (leBytes 8 (s1.tileStatus k off st).toNat))
  | .error f => (s, .fault f.code f.detail f.addr.toNat)

/-- A tile step of another device at a buffer (07 R161 to R165), or a read of a header (R169). -/
def State.tileTarget (s : State) (w : Who) (need : Need) (a : Nat) (f : Nat → Nat → BitVec 256 → State → State × HostAnswer) : State × Option HostAnswer :=
  match placeLocal a with
  | .pad k off =>
    (match peerCheck s w need 0 (s.phys a) false with
     | .fault e => (s, some (.fault e.code e.detail 0))
     | .ok _ | .held =>
       match s.bad.find? (fun g => a / 8 ≤ g && g ≤ (a + 31) / 8) with
       | some g => (s, some (.fault Code.eccUncorr.num 0 (8 * g - a)))
       | none => let r := f k off (s.hdrAt a) s; (r.1, some r.2))
  | .hbm | .store _ _ | .mmio | .host | .hole | .remote _ => (s, some (.fault Code.xlateProt.num 6 0))

/-- A header and the state seen there, as the first step of TROW, TELM and THDR takes them (entry 28). -/
def headAnswer (k off : Nat) (h : BitVec 256) (s : State) : State × HostAnswer :=
  let seen := if off % 256 = 0 then s.seen k off else .inside
  (s, .data (leBytes 32 h.toNat ++ leBytes 32 seen.code))

/-- The tests of a part of a write that another device has in hand (03 R76; 06 R126): one in a scratchpad that passes them is remembered until it is
made or given up. DESIGN CHOICE (entry 63); unsafe. -/
def State.agree (s : State) (w : Who) (q : DxlRequest) (n : Nat) : State × HostAnswer :=
  match s.targetFault w Need.store q.addr n, placeLocal q.addr with
  | some (c, d, o), _ => (s, .fault c d o)
  | none, .pad _ _ => ({ s with io := { s.io with promises := s.io.promises ++ [⟨q.dev, q.addr, n⟩] } }, .done)
  | none, _ => (s, .done)

/-- Whether a write of so many bytes is one that has passed its tests here. -/
def State.agreed (s : State) (q : DxlRequest) (n : Nat) : Bool := s.io.promises.contains ⟨q.dev, q.addr, n⟩

/-- A write that had passed its tests is made or given up. -/
def State.unpromise (s : State) (q : DxlRequest) (n : Nat) : State :=
  { s with io := { s.io with promises := s.io.promises.erase ⟨q.dev, q.addr, n⟩ } }

/-- A write of another device, made by `k`: one that had passed its tests here meets none of them again but that of errors, which drop it (13 R317; 14
R342). -/
def State.writeTarget (s : State) (w : Who) (q : DxlRequest) (n : Nat) (k : State → State) : State × Option HostAnswer :=
  if s.agreed q n then
    let t := s.unpromise q n
    (if (eccBad t w Need.store (s.phys q.addr) n).isSome then t.logFabric 2 2 q.dev (s.phys q.addr) else k t, some .done)
  else s.atTarget w Need.store q.addr n (fun t => (k t, .done))

/-- The step of another device's request at this device (14 R333); none while it is held. -/
def State.performRemote (s : State) (q : DxlRequest) : State × Option HostAnswer :=
  let w : Who := ⟨none, none, none, q.region, 0, !q.supervisor, none, none, none, none⟩
  let a := q.addr
  let own : Member := ⟨0, 0, s.ctl.devid, true⟩
  match q.kind with
  | .read n => s.atTarget w Need.load a n (fun t => (t, .data (memRead t.mem a n)))
  | .write d => s.writeTarget w q d.length (fun t => t.poke a d)
  | .amo fn wd x e =>
    let n := if wd then 4 else 8
    s.atTarget w Need.rmw a n (fun t => let r := t.amoStep (AmoFn.ofNum fn) n a x.toNat e.toNat; (r.1, .data (leBytes n r.2)))
  | .lacZero => s.atTarget w { Need.rmw with blind := true } a 48 (fun t => (t.poke a (List.replicate 48 0), .done))
  | .lacAdd k x =>
    (match s.targetFault w { Need.rmw with free := true } a 48, lacBad s a k x with
     | none, some g => (s, some (.fault Code.eccUncorr.num 0 (8 * g - a)))
     | _, _ => s.atTarget w { Need.rmw with free := true } a 48 (fun t => (t.applyOp a (.lacAdd k x), .done)))
  | .lacRound _ => s.atTarget w { Need.rmw with only := true } a 48 (fun t => (t, .data (memRead t.mem a 48)))
  | .sbit sh wd x =>
    let n := ceilDiv (sh + wd) 8
    s.writeTarget w q n (fun t => t.poke a (mergeBits (memRead t.mem a n) (leBytes n (x.toNat * 2 ^ sh)) sh wd))
  | .trow row o d => s.tileTarget w Need.put a (fun k off _ t => rowAnswer k off ⟨0, 0, a, row, true, 0, 8 * d.length, o, d⟩ t)
  | .telm sh wd o d => s.tileTarget w Need.put a (fun k off _ t => rowAnswer k off ⟨0, 0, a, 0, false, sh, wd, o, d⟩ t)
  | .tfill c => s.tileTarget w Need.put a (fun k off _ t =>
      match t.fillStep k off c with
      | .ok (t1, st) => (t1, .data (leBytes 8 (t1.tileStatus k off st).toNat))
      | .error e => (t, .fault e.num 3 0))
  | .head => s.tileTarget w Need.put a headAnswer
  | .thdr => s.tileTarget w Need.load a headAnswer
  | .check n => let r := s.agree w q n; (r.1, some r.2)
  | .forgo n => (s.unpromise q n, some .done)
  | .gleanRead n =>
    (match placeLocal a with
     | .pad k off =>
       let r := s.memberRead q.region none off n { own with cluster := k }
       (s, some (match r.failed with | some c => .fault c 0 0 | none => .data (leBytes n r.value.toNat)))
     | .hbm | .store _ _ | .mmio | .host | .hole | .remote _ => (s, some (.fault Code.xlateProt.num 6 0)))
  | .gleanWrite d =>
    (match placeLocal a with
     | .pad k off =>
       (match s.memberSkip q.region none off d.length { own with cluster := k } with
        | some c => (s, some (.fault c 0 0))
        | none => (s.poke a d, some .done))
     | .hbm | .store _ _ | .mmio | .host | .hole | .remote _ => (s, some (.fault Code.xlateProt.num 6 0)))
  | .join => s.atTarget w Need.step a 16 (fun t =>
      let r := t.joinStep a
      (r.1, .data (leBytes 8 r.2.1.toNat ++ leBytes 8 r.2.2.toNat)))

/-- A refused posted write is dropped and logged (14 R333, R342); every other answer goes back as it is. -/
def State.settleRemote (s : State) (q : DxlRequest) (r : HostAnswer) : State :=
  match r, q.posted with
  | .fault c _ _, true => (s.logFabric 2 (causeOf c) q.dev (s.phys q.addr)).tell .done
  | r, _ => s.tell r

/-- The place of a request of another device at home slices: the row with which it arrived. -/
def remotePlace (q : DxlRequest) : Waiter := .row (.dxlFlitReceive q)

/-- The first request that can perform: those to one line keep their order, and each that is held keeps its place (12 R298). -/
def remoteTurn : List DxlRequest → List Nat → State → State × Option (DxlRequest × HostAnswer)
  | [], _, s => (s, none)
  | q :: l, stuck, s =>
    if stuck.contains (q.addr / 64) then remoteTurn l stuck s
    else match ({ s with row := some (remotePlace q, false) } : State).performRemote q with
      | (s1, some r) => (State.dropPlaces { s1 with row := s.row } (some (remotePlace q)), some (q, r))
      | (s1, none) => remoteTurn l (q.addr / 64 :: stuck) { s1 with row := s.row }

/-- Whether the device answers other devices: stage 3, with DXL granted (15 R345, R350). -/
def State.dxlOn (s : State) : Bool := s.ctl.stage == 3 && s.service 34

/-- DXL_FLIT_RECEIVE (14 R332): a request that arrives. Link-level retry hides a flit that fails its check. -/
def execDxlFlitReceive (q : DxlRequest) (s : State) : Host.Outcome State Fault Refusal :=
  .next (if s.dxlOn then { s with io := { s.io with dxlIn := s.io.dxlIn ++ [q] } } else s)

/-- REMOTE_ACCESS (14 R333). -/
def execRemoteAccess (s : State) : Host.Outcome State Fault Refusal :=
  if !s.dxlOn then .next s
  else match remoteTurn s.io.dxlIn [] s with
    | (s1, some (q, r)) => .next (State.settleRemote { s1 with io := { s1.io with dxlIn := s1.io.dxlIn.erase q } } q r)
    | (s1, none) => .next s1

/-- The identity of an RDMA access: the owning region's space, at user level (entry 35). -/
def rdmaWho (s : State) (region : Nat) : Who := { regionWho s region none with user := true }

/-- Local buffers of RDMA: HBM and scratchpad (14 R335). -/
def rdmaPlace : Place → Bool
  | .hbm => true
  | .pad _ _ => true
  | _ => false

/-- A core store holds no buffer, and yet one of its workspaces may be live: that is tested first (14 R335, R342). -/
def rdmaReach (p : Place) : Bool :=
  rdmaPlace p || match p with
    | .store _ _ => true
    | .hbm | .pad _ _ | .mmio | .host | .hole | .remote _ => false

/-- The parts of an RDMA access, or its fault. -/
def State.rdmaParts (s : State) (w : Who) (need : Need) (va : Word) (n : Nat) : State × Res (List (Nat × Nat)) :=
  match s.checkLines w need rdmaReach (n / 64 + 2) va n with
  | (s1, .ok ps) =>
    if ps.all (fun p => rdmaPlace (s1.place p.1)) then (s1, .ok ps)
    else (s1, .fault (flt .xlateProt (va + word ((ps.takeWhile (fun p => rdmaPlace (s1.place p.1))).map (·.2)).sum) 6 need.acc))
  | r => r

/-- The physical address behind a virtual one, by the tables alone; 0 where they give none, and in the aperture, which no span gives an RDMA
access (05 R117). -/
def State.tableAddr (s : State) (w : Who) (va : Word) : Nat := (s.mapped w va).getD 0

/-- The first byte of an access that a live workspace refuses, by the workspace that the fault names. -/
def State.liveByte (s : State) (w : Who) (va ws : Word) : Nat → Nat
  | 0 => 0
  | fuel + 1 =>
    let pa := s.tableAddr w va
    if localOf pa / 256 * 256 = ws.toNat then pa else s.liveByte w (word ((va.toNat / 64 + 1) * 64)) ws fuel

/-- Whether an RDMA message is within the limits of 14 R335: a queue pair that exists, and 1 byte to 2 GiB. DEDUCED (entry 35); unsafe. -/
def rdmaMessage (qp n : Nat) : Bool := decide (qp < 16384) && decide (0 < n) && decide (n ≤ 2 ^ 31)

/-- Whether RDMA is served: stage 3, with the Ethernet service granted (15 R345, R350). -/
def State.ethOn (s : State) : Bool := s.ctl.stage == 3 && s.service 35

/-- A queue pair enters the error state, and its sender receives a remote access error (14 R335). -/
def State.qpFail (s : State) (qp : Nat) : State :=
  State.tell { s with io := { s.io with qpError := if s.io.qpError.contains qp then s.io.qpError else qp :: s.io.qpError } } .remoteError

/-- Bytes written in a region's space for a queue pair (14 R335), and then `k`; dropped and logged where they are refused. -/
def State.rdmaStore (s : State) (qp region va : Nat) (bs : List Byte) (k : State → State) : State :=
  if !s.ethOn then s.tell .unsupported
  else if s.io.qpError.contains qp || !rdmaMessage qp bs.length then s.tell .remoteError
  else
    let w := rdmaWho s region
    match s.rdmaParts w Need.put (word va) bs.length with
    | (s1, .fault f) =>
      let pa := if f.code = Code.wsLive.num then s1.liveByte w (word va) f.addr (bs.length / 64 + 2) else s1.tableAddr w f.addr
      (s1.logFabric 3 (causeOf f.code) 0 pa).qpFail qp
    | (s1, .held) => s1
    | (s1, .ok ps) =>
      match s1.ownLines none ((ps.map (fun p => s1.hbmLines p.1 p.2)).flatten) with
      | (s2, false) => s2
      | (s2, true) => (k (s2.pokeParts ps bs)).tell .done

/-- RDMA_WRITE (14 R335). -/
def execRdmaWrite (qp region va : Nat) (data : List Byte) (s : State) : Host.Outcome State Fault Refusal :=
  .next (s.rdmaStore qp region va data (fun t => t))

/-- What a queue pair has received: the immediate value, or the bytes of a send. -/
def State.received (s : State) (qp : Nat) (bs : List Byte) : State := { s with io := { s.io with sends := s.io.sends ++ [(qp, bs)] } }

/-- RDMA_WRITE_WITH_IMMEDIATE (14 R335). -/
def execRdmaWriteWithImmediate (qp region va : Nat) (data : List Byte) (imm : Word32) (s : State) : Host.Outcome State Fault Refusal :=
  .next (s.rdmaStore qp region va data (fun t => t.received qp (leBytes 4 imm.toNat)))

/-- SEND (14 R335): the bytes go to the buffer that the receiver posted. -/
def execSend (qp region va : Nat) (data : List Byte) (s : State) : Host.Outcome State Fault Refusal :=
  .next (s.rdmaStore qp region va data (fun t => t.received qp data))

/-- COMPLETION_ENTRY (14 R335): written after its operation's data, which earlier steps have performed. -/
def execCompletionEntry (qp region va : Nat) (entry : List Byte) (s : State) : Host.Outcome State Fault Refusal :=
  .next (s.rdmaStore qp region va entry (fun t => t))

/-- RDMA_READ (14 R335). -/
def execRdmaRead (qp region va len : Nat) (s : State) : Host.Outcome State Fault Refusal :=
  if !s.ethOn then .next (s.tell .unsupported)
  else if s.io.qpError.contains qp || !rdmaMessage qp len then .next (s.tell .remoteError)
  else match s.rdmaParts (rdmaWho s region) Need.load (word va) len with
    | (s1, .fault _) => .next (s1.qpFail qp)
    | (s1, .held) => .next s1
    | (s1, .ok ps) =>
      match s1.readLines none ((ps.map (fun p => s1.hbmLines p.1 p.2)).flatten) with
      | (s2, false) => .next s2
      | (s2, true) => .next (s2.tell (.data (s2.peekParts [] ps)))

/-- The physical address of a queue pair's doorbell, on the MMIO page (14 R335). DESIGN CHOICE (entry 59); safe. -/
def State.pairDoorbell (s : State) (qp : Nat) : Nat := s.phys (Config.mmioBase + (Config.pairDoorbell qp).toNat)

/-- An 8-byte store to a queue pair's doorbell (14 R335); dropped and logged while the service is off (15 R350). -/
def State.workNow (s : State) (st : Storer) (qp : Nat) (v : Word) : State :=
  if s.ctl.stage < 3 || 16384 ≤ qp then s
  else if s.service 35 then { s with io := { s.io with works := s.io.works ++ [(qp, v)] } }
  else s.logFabric (Storer.dropSource st) (Config.dropCause 0).toNat 0 (s.pairDoorbell qp)

/-- WORK_REQUEST_POST (14 R335), in the order of its storer's writes (R336). -/
def execWorkRequestPost (st : Storer) (qp : Nat) (v : Word) (s : State) : Host.Outcome State Fault Refusal :=
  .next (if s.posting st then s.post st (.work qp v) else s.workNow st qp v)

/-- Whether CXL.mem reaches a line (14 R337; 15 R345, R350). -/
def State.cxlMemOn (s : State) (addr : Nat) : Bool := s.ctl.stage == 3 && s.service 32 && decide (addr / 64 * 64 + 64 ≤ Config.hbmEnd)

/-- CXL_MEM_READ (14 R337): the line at its home slice; the host may hold it from then on. -/
def execCxlMemRead (_p : Port) (addr : Nat) (s : State) : Host.Outcome State Fault Refusal :=
  let line := addr / 64
  if !s.cxlMemOn addr then .next (s.tell .unsupported)
  else match s.readLine none line with
    | (s0, false) => .next s0
    | (s0, true) =>
      if badIn s0.bad (64 * line) 64 then .next (s0.tell (.fault Code.eccUncorr.num 0 0))
      else
        let s1 := { s0 with io := { s0.io with hostHolds := if s0.io.hostHolds.contains line then s0.io.hostHolds else line :: s0.io.hostHolds } }
        .next (s1.tell (.data (memRead s1.mem (64 * line) 64)))

/-- Runs of bytes that a mask of 64 enables: offset and bytes. -/
def maskedRuns (mask : BitVec 64) (data : BitVec 512) : Nat → List (Nat × List Byte)
  | 0 => []
  | n + 1 =>
    let i := 63 - n
    if !mask.getLsbD i then maskedRuns mask data n
    else
      let b : Byte := data.extractLsb' (8 * i) 8
      match maskedRuns mask data n with
      | (o, bs) :: l => if o = i + 1 then (i, b :: bs) :: l else (i, [b]) :: (o, bs) :: l
      | [] => [(i, [b])]

/-- Granules of a masked write that have an uncorrectable error and are not written whole (13 R317). -/
def maskedBad (bad : List Nat) (line : Nat) (mask : BitVec 64) : Bool :=
  bad.any (fun g => g / 8 == line && (let m : BitVec 8 := mask.extractLsb' (8 * (g % 8)) 8; m != 0 && m != 255))

/-- CXL_MEM_WRITE (14 R337, R342): held at its home slice by a copy's registration (11 R275). -/
def execCxlMemWrite (p : Port) (addr : Nat) (data : BitVec 512) (mask : BitVec 64) (s : State) : Host.Outcome State Fault Refusal :=
  let line := addr / 64
  if s.ctl.stage < 3 then .next s
  else if !s.cxlMemOn addr then .next (s.tell .unsupported)
  else match s.readLine none line with
    | (s0, false) => .next s0
    | (s0, true) =>
      if maskedBad s0.bad line mask then .next ((s0.logFabric (portNum p) 2 0 (s0.phys (64 * line))).tell .done)
      else .next (((maskedRuns mask data 64).foldl (fun t e => t.poke (64 * line + e.1) e.2) s0).tell .done)

/-- Whether n bytes from a local address touch a live workspace (01 R13). -/
def State.liveWs (s : State) (a n : Nat) : Bool := s.ctxs.any (fun e => e.2.wp.toNat < a + n && a < e.2.wp.toNat + 256)

/-- Whether n bytes lie in the range of BAR 2 (14 R337). -/
def bar2Range (a n : Nat) : Bool :=
  decide (0 < n) && match placeLocal a, placeLocal (a + n - 1) with
    | .pad _ _, .pad _ _ => true
    | .pad _ _, .store _ _ => true
    | .store _ _, .store _ _ => true
    | _, _ => false

/-- BAR2_READ (14 R337): a live workspace is refused and logged. -/
def execBar2Read (p : Port) (addr len : Nat) (s : State) : Host.Outcome State Fault Refusal :=
  if s.ctl.stage < 3 || !bar2Range addr len then .next (s.tell .unsupported)
  else if s.liveWs addr len then .next ((s.logFabric (portNum p) 4 0 (s.phys addr)).tell .unsupported)
  else if badIn s.bad addr len then .next (s.tell (.fault Code.eccUncorr.num 0 0))
  else .next (s.tell (.data (memRead s.mem addr len)))

/-- Why a host write through BAR 2 is dropped: CAUSE (14 R337, R342), the first that fits of no crew, live, guard, error.
DESIGN CHOICE (entry 59); unsafe. -/
def State.bar2Drop (s : State) (a n : Nat) : Option Nat :=
  let k := match placeLocal a with
    | .pad k _ => k
    | .store n _ => n / 4
    | .hbm | .mmio | .host | .hole | .remote _ => 0
  let guarded := match placeLocal a with
    | .pad k off => (guardedIn (s.cluster k) off n).isSome
    | .hbm | .store _ _ | .mmio | .host | .hole | .remote _ => false
  if (s.crew? k).isNone then some 3
  else if s.liveWs a n then some 4
  else if guarded then some 1
  else if (badPartial s.bad a n).isSome then some 2
  else none

/-- The cause for which some line of a host write is dropped: of the first such line. -/
def bar2Causes (s : State) : Nat → Nat → Nat → Option Nat
  | 0, _, _ => none
  | fuel + 1, a, n =>
    if n = 0 then none
    else
      let m := Nat.min n (64 - a % 64)
      match s.bar2Drop a m with
      | some c => some c
      | none => bar2Causes s fuel (a + m) (n - m)

/-- A host write through BAR 2 (14 R337, R342): dropped whole, and logged, where any byte of it is refused (03 R76). -/
def State.bar2Now (s : State) (p : Port) (addr : Nat) (data : List Byte) : State :=
  if s.ctl.stage < 3 || !bar2Range addr data.length then s
  else match bar2Causes s (data.length / 64 + 2) addr data.length with
    | some c => s.logFabric (portNum p) c 0 (s.phys addr)
    | none => s.poke addr data

/-- BAR2_WRITE (14 R337): posted, in the order of its port's writes (R336). -/
def execBar2Write (p : Port) (addr : Nat) (data : List Byte) (s : State) : Host.Outcome State Fault Refusal :=
  .next (if s.posting (.port p) then s.post (.port p) (.bar2 addr data) else s.bar2Now p addr data)

end Sys2Proof.Machine
end

