-- ==== Sys2Proof/Machine/Place.lean ====
section
/-! DEFINITION. The binder (01 R17; 12 R286), handler binds (13 R312), retries of full fault queues (13 R311, R313), the end of crews and of
draining (01 R21), and launches (01 R25 to R28; 12 R281 to R285). -/
namespace Sys2Proof.Machine

/-- Slots of a core that are IDLE, lowest first (01 R9). -/
def State.idleSlot (s : State) (core : Nat) : Option Nat := (List.range 64).find? (fun i => (s.ctx? (64 * core + i)).isNone)

/-- The lowest-numbered free workspace of a core's pool (01 R12). -/
def State.freePool (s : State) (core : Nat) : Option Nat := (List.range 512).find? (fun i => !(s.core core).used.contains i)

/-- A continuation record's fields (01 R14 to R16). -/
structure Cont where
  pc : Word
  wp : Word
  d2 : Word
  d3 : Word
  arg0 : Word
  arg1 : Word
  arg2 : Word
  d7 : Word
  deriving DecidableEq, Repr

/-- The fields of 64 bytes. -/
def contOf (r : List Byte) : Cont :=
  ⟨recWord r 0, recWord r 1, recWord r 2, recWord r 3, recWord r 4, recWord r 5, recWord r 6, recWord r 7⟩
/-- Region of a record. -/
def Cont.region (q : Cont) : Nat := field q.d2 63 32
/-- KIND. -/
def Cont.kind (q : Cont) : Nat := field q.d7 7 4
/-- MODE. -/
def Cont.mode (q : Cont) : Nat := field q.d2 3 2
/-- CORESEL. -/
def Cont.sel (q : Cont) : Nat := field q.d2 1 0

/-- Whether a core has an IDLE context, and a free pool workspace where one is needed (01 R16). -/
def State.coreOpen (s : State) (core : Nat) (fresh : Bool) : Bool := (s.idleSlot core).isSome && (!fresh || (s.freePool core).isSome)

/-- FEAT of a cluster includes a mask (01 R16, 12 R284). -/
def State.featHas (s : State) (k : Nat) (mask : Word) : Bool := mask &&& ~~~(s.feat (dieOfCluster k)) == 0

/-- The core on which an entry binds (12 R286 step 3), as a number in the cluster. -/
def State.chooseCore (s : State) (k : Nat) (q : Cont) : Option Nat :=
  let ready := fun i => s.coreOpen (4 * k + i) (q.wp == 0)
  let suits := fun i => ready i && s.featHas k q.d3
  if q.wp != 0 then
    match placeLocal q.wp.toNat with
    | .store n _ => if ready (n % 4) then some (n % 4) else none
    | _ => none
  else if q.mode = 1 then (if ready q.sel then some q.sel else none)
  else if q.mode = 2 && suits q.sel then some q.sel
  else
    let b := (s.cluster k).binder
    [(b + 1) % 4, (b + 2) % 4, (b + 3) % 4, b % 4].find? suits

/-- The fault with which the binder refuses an entry (01 R17 steps 1 to 3; 13 R317 for a record that cannot be read, entry 30). -/
def State.refusal (s : State) (k : Nat) (slotAddr : Nat) (q : Cont) : Option FaultInfo :=
  let home := match placeLocal q.wp.toNat with
    | .store n _ => q.wp.toNat % 256 == 0 && n / 4 == k
    | _ => false
  match s.bad.find? (fun g => slotAddr / 8 ≤ g && g < slotAddr / 8 + 8) with
  | some g => some (flt .eccUncorr (word (8 * g)))
  | none =>
    if some q.region != (s.crewRegion? k).map (· % 2 ^ 32) || q.kind = 2 then some (flt .priv 0)
    else if q.kind != 0 || q.mode = 3 then some (flt .illegal 0)
    else if q.wp != 0 && !home then some (flt .xlateProt q.wp 6)
    else none

/-- What the binder does in an s-cycle (12 R286). -/
inductive BindAct where
  | bind (lane core : Nat)
  | refuse (lane : Nat) (f : FaultInfo)
  deriving DecidableEq, Repr

/-- What the oldest entry of a lane allows now: a refused entry is dispatched when the retry of its lane is due and the FIFO of handler binds has
room (12 R286; entry 66). -/
def State.laneAct (s : State) (k p : Nat) : Option BindAct :=
  let cl := s.cluster k
  if (cl.tq.lane p).count = 0 then none
  else
    let q := contOf (s.tqHead k p)
    match s.refusal k (tqSlot k cl.tq.qcap (cl.tq.lane p).head) q with
    | some f => if cl.refusedAt.getD p 0 ≤ s.now && s.handlerRoom k then some (.refuse p f) else none
    | none =>
      if q.wp != 0 && (s.liveIn q.wp.toNat).isSome then none
      else (s.chooseCore k q).map (fun i => .bind p i)

/-- Task contexts bound in a cluster (12 R286: handlers do not count). -/
def State.tasksIn (s : State) (k : Nat) : Nat :=
  ((s.boundIn k).filter (fun c => ((s.ctx? c).map (·.level)) == some .user)).length

/-- The budget of the binder (12 R286 step 1). -/
def State.mayTake (s : State) (k : Nat) : Bool :=
  decide (s.tasksIn k < (s.cluster k).ctxlim) &&
  match (s.crewRegion? k).bind s.region? with
  | some r => (s.path r).all (fun q => decide (q.usectx < s.eff q 2 (·.maxctx)))
  | none => false

/-- FCSR as PLACEMENT saves it (01 R16, R17 step 7). -/
def fcsrOf (d2 : Word) : Word := word (field d2 8 4 + field d2 10 9 * 32)

/-- A workspace's registers w1 to w31 at a fresh bind (01 R17 step 5, 13 R312). -/
def freshRegs (w : List Word) : List Byte := ((w ++ List.replicate (31 - w.length) 0).map (fun (v : Word) => leBytes 8 v.toNat)).flatten

/-- The context of a bind (01 R17 steps 6 and 7; R30): its address-space registers come from the effective RCB. The PC holds zero in bits
[1:0] (01 R14). DESIGN CHOICE (entry 5); unsafe. DEDUCED (entry 48); unsafe. -/
def State.boundCtx (s : State) (region : Nat) (q : Cont) (wp : Word) : Ctx where
  pc := q.pc &&& ~~~3
  wp := wp
  home := wp
  rid := region
  bind2 := q.d2
  bind3 := q.d3
  arg0 := q.arg0
  arg1 := q.arg1
  arg2 := q.arg2
  level := .user
  fcsr := fcsrOf q.d2
  events := 0
  trappc := 0
  trapinfo := 0
  trapaddr := 0
  tvbase := 0
  asid := s.effOf region 5 (·.asid) 0
  dtb := s.effOf region 9 (·.dtb) 0
  gtb := s.effOf region 8 (·.gtb) 0
  st := .idle
  held := false
  iw := 0
  got := []
  granted := []
  mark := none

/-- A context put into a slot: it counts in USECTX (01 R22), its bind acquires at PKG (11 R270), and it may issue from the next s-cycle. -/
def State.seat (s : State) (c : Nat) (x : Ctx) : State :=
  let s1 := ((s.setCtx c x).use x.region (fun r => { r with usectx := r.usectx + 1 })).acquire (coreOf c) .pkg
  let k := s1.core (coreOf c)
  s1.setCore (coreOf c) { k with issueAt := k.issueAt.insert (slotOf c) (Nat.max (k.issueAt.getD (slotOf c) 0) (s.now + 1)) }

/-- A fresh workspace of a core's pool, written and marked allocated (01 R12, R17 step 5): its address. -/
def State.freshWs (s : State) (core i : Nat) (dw0 : Word) (regs : List Word) : State × Word :=
  let wp := wsAddr core (256 * i)
  ((s.takeWs core (word wp)).poke wp (leBytes 8 dw0.toNat ++ freshRegs regs), word wp)

/-- The bind of a task (01 R17 steps 5 to 7): it counts for the rotation of cores (12 R286). -/
def State.bindTask (s : State) (k lane i : Nat) : State :=
  let q := contOf (s.tqHead k lane)
  let region := (s.crewRegion? k).getD q.region
  let core := 4 * k + i
  let dw0 := q.d7 &&& ~~~8
  let s1 := s.tqPop k lane
  let s2 := s1.setCluster k { s1.cluster k with binder := i }
  match s2.idleSlot core with
  | none => s
  | some slot =>
    let c := 64 * core + slot
    if q.wp = 0 then
      match s2.freePool core with
      | none => s
      | some j =>
        let r := s2.freshWs core j dw0 [q.arg0, q.arg1, q.arg2]
        r.1.seat c (r.1.boundCtx region q r.2)
    else ((s2.takeWs core q.wp).poke64 q.wp.toNat dw0).seat c (s2.boundCtx region q q.wp)

/-- A record with KIND := 3 (13 R313). -/
def asFaulted (r : List Byte) : List Byte := setAt r 56 ((r.getD 56 0 &&& 0x0F) ||| 0x30)

/-- The dispatch of a refused entry (01 R17; 12 R286; 13 R313). -/
def State.refuseEntry (s : State) (k lane : Nat) (f : FaultInfo) : State :=
  let r := s.tqHead k lane
  match s.crewRegion? k with
  | none => s
  | some region =>
    match s.faultEnq (s.mxWho k) (asFaulted r) with
    | (s1, .done pos) =>
      let s2 := (s1.countRecord k).tqPop k lane
      (s2.setCluster k { s2.cluster k with refusedAt := (s2.cluster k).refusedAt.erase lane }).queueHandler k
        ⟨none, pos, recWord r 0, trapInfo f 0, f.addr⟩
    | (s1, .full) => s1.setCluster k { s1.cluster k with refusedAt := (s1.cluster k).refusedAt.insert lane (s1.now + retryGap) }
    | (s1, .held) => s1
    | (s1, .unusable) => s1.queueUnusable region (some k)

/-- The template of a handler and the slot in which it binds (13 R312): the slot that faulted, or the lowest of the first core that has an
IDLE slot and a free workspace. -/
def State.handlerSlot (s : State) (k : Nat) (h : HandlerBind) : Option Nat :=
  let own := match h.slot with
    | some c => if (s.ctx? c).isNone && (s.freePool (coreOf c)).isSome then some c else none
    | none => none
  match own with
  | some c => some c
  | none =>
    match (List.range 4).find? (fun i => s.coreOpen (4 * k + i) true) with
    | some i => (s.idleSlot (4 * k + i)).map (fun j => 64 * (4 * k + i) + j)
    | none => none

/-- The binder has made its bind or its dispatch of this s-cycle (12 R286). -/
def State.binderUsed (s : State) (k : Nat) : State := s.setCluster k { s.cluster k with bindAt := s.now + 1 }

/-- Whether a cluster's binder serves its handler FIFO now (13 R312; 13 R319: not while the crew quiesces). -/
def State.handlerReady (s : State) (k : Nat) : Bool :=
  !s.quiescing k && (s.crew? k).isSome && match (s.cluster k).handlers with
    | h :: _ => (s.handlerSlot k h).isSome
    | [] => false

/-- BIND (01 R17; 12 R286): one take or one dispatch in an s-cycle; handlers go first, and a frozen crew binds only handlers (13 R315). -/
def execBind (k : Nat) (s : State) : Host.Outcome State Fault Refusal :=
  let cl := s.cluster k
  if (s.crew? k).isNone || cl.frozen || s.quiescing k || s.now < cl.bindAt || s.handlerReady k || !s.mayTake k then .next s
  else match [7, 6, 5, 4, 3, 2, 1, 0].filterMap (s.laneAct k) with
    | .bind lane i :: _ => .next ((s.binderUsed k).bindTask k lane i)
    | .refuse lane f :: _ => .next ((s.binderUsed k).refuseEntry k lane f)
    | [] => .next s

/-- The bytes of parts that the coordinator or a cluster controller reads: those of this device at their point of coherence, others as
replies bring them. What the host refuses is XLATE_PROT with DETAIL 6 (14 R338). -/
def partBytes (me : Option Waiter) (va : Word) : List (Nat × Nat) → List Reply → State → State × Res (List Byte × List Reply)
  | [], o, s => (s, .ok ([], o))
  | (pa, n) :: l, o, s =>
    let rest := fun (b : List Byte) (o : List Reply) (t : State) => match partBytes me (va + word n) l o t with
      | (u, .ok (b', o')) => (u, .ok (b ++ b', o'))
      | (u, .fault f) => (u, .fault f)
      | (u, .held) => (u, .held)
    let away := fun (host : Bool) => match o with
      | .data v :: o' => rest (leBytes n v.toNat) o' s
      | .fault code detail off :: _ =>
        (s, .fault (if host then flt .xlateProt va 6 else ⟨code, replyAddr code va off, detail, 0, false, 0⟩))
      | .here :: _ => (s, .held)
      | [] => (s, .held)
    match s.place pa with
    | .hbm =>
      (match s.readLines me (s.hbmLines pa n) with
       | (s1, true) => rest (memRead s1.mem (localOf pa) n) o s1
       | (s1, false) => (s1, .held))
    | .pad _ _ | .store _ _ => rest (memRead s.mem (localOf pa) n) o s
    | .host => (match s.io.hostCache.find? (localOf pa / 64) with
        | some v => rest (lineBytes v (pa % 64) n) o s
        | none => away true)
    | .remote _ => away false
    | .mmio | .hole => rest (List.replicate n 0) o s

/-- n bytes that the coordinator or a cluster controller reads in a region's space. -/
def State.readAs (s : State) (w : Who) (va : Word) (n : Nat) (o : List Reply) : State × Res (List Byte × List Reply) :=
  match s.checkAccess w Need.load anyPlace va n with
  | (s1, .ok ps) => partBytes w.waiter va ps o s1
  | (s1, .fault f) => (s1, .fault f)
  | (s1, .held) => (s1, .held)

/-- HANDLER_BIND (13 R312): the head of the cluster's handler FIFO. A template that cannot be read, or HNDL = 0, binds no handler.
DEDUCED (entry 46); unsafe. -/
def execHandlerBind (k : Nat) (outside : List Reply) (s : State) : Host.Outcome State Fault Refusal :=
  let cl := s.cluster k
  match cl.handlers with
  | [] => .next s
  | h :: rest =>
    if !s.handlerReady k || s.now < cl.bindAt then .next s
    else
      let w := s.mxWho k
      let s0 := s.setCluster k { cl with handlers := rest }
      let hndl := s.effOf w.region 7 (·.hndl) 0
      if hndl = 0 then .next s0
      else if hndl.toNat % 64 != 0 then .next s0
      else match s0.readAs w hndl 64 outside with
        | (s1, .fault _) => .next s1
        | (s1, .held) => .next (s1.setCluster k { s1.cluster k with handlers := cl.handlers })
        | (s1, .ok (bs, _)) =>
          match s1.handlerSlot k h with
          | none => .next s
          | some c =>
            match s1.freePool (coreOf c) with
            | none => .next s
            | some j =>
              let q := contOf bs
              let r := s1.freshWs (coreOf c) j (setField (q.d7 &&& ~~~8) 7 4 2) [q.arg0, q.arg1, q.arg2, h.pos]
              let x := { r.1.boundCtx w.region q r.2 with
                bind2 := setField q.d2 63 32 (w.region % 2 ^ 32), level := .supervisor, trappc := h.pc, trapinfo := h.info, trapaddr := h.addr,
                tvbase := q.pc &&& ~~~3 }
              .next ((r.1.seat c x).binderUsed k)

/-- Whether a crew has nothing left (01 R21). A frozen crew retires only by RELEASE; a handler that is to bind, and a notice that waits on
a full queue, hold the crew (R21; 13 R312; entry 31). -/
def State.crewIdle (s : State) (k : Nat) : Bool :=
  let cl := s.cluster k
  let done := fun (m : Mx) => m.st == .halted || m.st == .off
  cl.tq.total == 0 && (s.boundIn k).isEmpty && done cl.mx0 && done cl.mx1 && !cl.frozen && cl.handlers.isEmpty && cl.notices.isEmpty

/-- Spans whose last crew has retired and whose step waits: tried again (01 R21). -/
def State.retrySpans (s : State) : State := (s.co.spans.filter (fun p => !p.ended)).foldl (fun t p => t.retireSpan p) s

/-- CREW_RETIREMENT (01 R21). -/
def execCrewRetirement (k : Nat) (s : State) : Host.Outcome State Fault Refusal :=
  let s1 := s.retrySpans
  .next (if (s1.crew? k).isSome && s1.crewIdle k then s1.retireCrew k else s1)

/-- The four cores of a cluster. -/
def coresOf (k : Nat) : List Nat := [4 * k, 4 * k + 1, 4 * k + 2, 4 * k + 3]

/-- Whether every tag of a cluster's cores has COUNT 0 (01 R21). -/
def State.tagsClear (s : State) (k : Nat) : Bool := (coresOf k).all (fun n => (s.core n).tags.all (fun e => e.2.count == 0))

/-- The tags, fault slots and parked reports of a cluster cleared (01 R21). -/
def State.clearTags (s : State) (k : Nat) : State :=
  (coresOf k).foldl (fun t n => if (t.core n).tags.isEmpty then t else t.setCore n { t.core n with tags := [] })
    { s with parked := s.parked.filter (fun p => p.core / 4 != k) }

/-- A cluster in the free pool again: what belongs to the cluster and not to a crew stays (13 R304, R314; 15 R359). -/
def Cluster.vacant (cl : Cluster) : Cluster :=
  { Cluster.fresh with fenced := cl.fenced, counters := cl.counters, tlb := cl.tlb, mx0 := Mx.fresh, mx1 := Mx.fresh }

/-- CLUSTER_DRAIN_END (01 R21; 12 R283, R285): USECL falls, budget waits of the path end, and a reserving launch is tested again. -/
def execClusterDrainEnd (k : Nat) (s : State) : Host.Outcome State Fault Refusal :=
  match (s.cluster k).owner with
  | .draining n _ =>
    if !s.tagsClear k || s.promised k 0 Config.padSize then .next s
    else
      let region := ((s.span? n).map (·.region)).getD 0
      let s1 := (s.clearTags k).setCluster k (s.cluster k).vacant
      let s2 := (s1.use region (fun r => { r with usecl := r.usecl - 1 })).endBudgetWaits region
      .next (State.sweepSpans { s2 with co := { s2.co with retest := s2.co.reserving.map (·.1) } })
  | .free => .next s
  | .crew _ _ => .next s

/-- What a launch needs once its checks have passed (01 R26, R28). -/
structure Launch where
  ncrew : Nat
  ctxlim : Nat
  qcap : Nat
  images : Option (Word × List (BitVec 512)) × Option (Word × List (BitVec 512))
  entries : Nat × Nat
  seed : List Byte
  featmask : Word
  grid : Option (Nat × Nat × Nat × Nat × Nat)
  done : Word
  deriving DecidableEq, Repr

/-- A launch's check goes on, or fails, or waits for a held access or a reply. -/
abbrev Checked (α : Type) := State × Res (α × List Reply)

/-- The next check of a launch. -/
def Checked.andThen {α β : Type} (r : Checked α) (k : α → List Reply → State → Checked β) : Checked β :=
  match r with
  | (s, .ok (v, o)) => k v o s
  | (s, .fault f) => (s, .fault f)
  | (s, .held) => (s, .held)

/-- A test of a launch: its fault where it fails. -/
def testThen {α : Type} (ok : Bool) (f : FaultInfo) (s : State) (k : Unit → Checked α) : Checked α := if ok then k () else (s, .fault f)

/-- Whether a launch record's fields are in range (01 R26, R28 step 3). -/
def launchOk (w : List Word) : Bool :=
  let g := fun i => w.getD i 0
  let en := fun (b len ent : Nat) => !(g 0).getLsbD b || (1 ≤ len && len ≤ 1024 && ent < len)
  field (g 0) 15 9 == 0 && field (g 0) 63 50 == 0 && field (g 3) 31 22 == 0 && field (g 3) 63 52 == 0 && g 7 == 0 &&
  1 ≤ field (g 0) 8 0 && field (g 0) 8 0 ≤ 256 &&
  [64, 128, 256, 512, 1024, 2048, 4096, 8192, 16384, 32768].contains (field (g 0) 47 32) &&
  en 48 (field (g 3) 10 0) (field (g 3) 41 32) && en 49 (field (g 3) 21 11) (field (g 3) 51 42)

/-- The lines of an image, each read (01 R28 step 7). -/
def imageLines (w : Who) : Nat → Word → List Reply → State → Checked (List (BitVec 512))
  | 0, _, o, s => (s, .ok ([], o))
  | n + 1, va, o, s =>
    Checked.andThen (s.readAs w va 64 o) (fun bs o1 s1 =>
      Checked.andThen (imageLines w n (va + 64) o1 s1) (fun ls o2 s2 => (s2, .ok (BitVec.ofNat 512 (leNat bs) :: ls, o2))))

/-- The image of an MX, if it is enabled, and its address (01 R28 step 7). -/
def launchImage (w : Who) (on : Bool) (va : Word) (n : Nat) (o : List Reply) (s : State) : Checked (Option (Word × List (BitVec 512))) :=
  if !on then (s, .ok (none, o))
  else testThen (va.toNat % 64 == 0) (flt .align va) s (fun _ =>
    Checked.andThen (imageLines w n va o s) (fun ls o1 s1 => (s1, .ok (some (va, ls), o1))))

/-- A grid record's fields (07 R178): NDIM, ORDER and the extents, or none when they fail. -/
def gridOf (w : List Word) : Option (Nat × Nat × Nat × Nat × Nat) :=
  let g := fun i => w.getD i 0
  let nd := field (g 0) 1 0
  let e := fun k => if k < nd then field (g 1) (16 * k + 15) (16 * k) else 1
  if nd = 0 || field (g 0) 3 2 = 3 || field (g 0) 63 4 != 0 || field (g 1) 63 48 != 0 || (w.drop 2).any (· != 0) || e 0 = 0 || e 1 = 0 ||
      e 2 = 0 then none
  else some (nd, field (g 0) 3 2, e 0, e 1, e 2)

/-- The grid of a launch (01 R28 step 8). -/
def launchGrid (w : Who) (va : Word) (o : List Reply) (s : State) : Checked (Option (Nat × Nat × Nat × Nat × Nat)) :=
  if va = 0 then (s, .ok (none, o))
  else testThen (va.toNat % 8 == 0) (flt .align va) s (fun _ =>
    Checked.andThen (s.readAs w va 64 o) (fun bs o1 s1 =>
      match gridOf (dwords bs 8) with
      | some g => (s1, .ok (some g, o1))
      | none => (s1, .fault (flt .illegal 0))))

/-- The completion future of a launch (01 R28 step 9). -/
def launchDone (w : Who) (va : Word) (o : List Reply) (s : State) : Checked Unit :=
  if va = 0 then (s, .ok ((), o))
  else if va.toNat % 16 != 0 then (s, .fault (flt .align va))
  else match s.cell w { r := false, w := true, fut := true } va with
    | (s1, .ok _) => (s1, .ok ((), o))
    | (s1, .fault f) => (s1, .fault f)
    | (s1, .held) => (s1, .held)

/-- Effective MAXCL (01 R22: larger values act as 256). -/
def State.maxClusters (s : State) (r : Region) : Nat := Nat.min (s.eff r 1 (·.maxcl)) 256

/-- Eligible clusters (12 R284). -/
def State.eligible (s : State) (mask : Word) : List Nat := (List.range Config.clusters).filter (fun k => !(s.cluster k).fenced && s.featHas k mask)

/-- The checks of 01 R28 before placement, in the order of its table. -/
def State.checkLaunch (s : State) (r : Region) (q : Cont) (o : List Reply) : Checked Launch :=
  let w := regionWho s r.id none
  testThen (q.arg0.toNat % 64 == 0) (flt .align q.arg0) s (fun _ =>
  Checked.andThen (s.readAs w q.arg0 64 o) (fun bs o1 s1 =>
    let dw := dwords bs 8
    let g := fun i => dw.getD i 0
    testThen (launchOk dw) (flt .illegal 0) s1 (fun _ =>
    testThen ((g 4).toNat % 64 == 0) (flt .align (g 4)) s1 (fun _ =>
    Checked.andThen (s1.readAs w (g 4) 64 o1) (fun seed o2 s2 =>
    testThen ((contOf seed).kind == 0) (flt .illegal 0) s2 (fun _ =>
    Checked.andThen (launchImage w ((g 0).getLsbD 48) (g 1) (field (g 3) 10 0) o2 s2) (fun i0 o3 s3 =>
    Checked.andThen (launchImage w ((g 0).getLsbD 49) (g 2) (field (g 3) 21 11) o3 s3) (fun i1 o4 s4 =>
    Checked.andThen (launchGrid w (g 5) o4 s4) (fun grid o5 s5 =>
    Checked.andThen (launchDone w (g 6) o5 s5) (fun _ o6 s6 =>
      let n := field (g 0) 8 0
      let lim := field (g 0) 31 16
      let mask := (contOf seed).d3
      testThen ((s6.path r).all (fun p => decide (n ≤ s6.maxClusters p))) (flt .bounds (word n)) s6 (fun _ =>
      testThen (decide (n ≤ (s6.eligible mask).length)) (flt .featAbsent 0) s6 (fun _ =>
        (s6, .ok (⟨n, if lim = 0 then 256 else Nat.min lim 256, field (g 0) 47 32, (i0, i1),
          (field (g 3) 41 32, field (g 3) 51 42), seed, mask, grid, g 6⟩, o6))))))))))))))

/-- The die among those that can hold a span alone with the fewest free clusters (12 R285 step 1). -/
def bestDie (free : List Nat) (n : Nat) : Option (List Nat) :=
  let per := (List.range 4).map (fun d => free.filter (fun k => dieOfCluster k == d))
  (per.filter (fun l => decide (n ≤ l.length))).foldl (fun (m : Option (List Nat)) l =>
    match m with
    | none => some l
    | some b => some (if l.length < b.length then l else b)) none

/-- The clusters of a span in order of rank (12 R285). -/
def chooseClusters (free : List Nat) (n : Nat) : List Nat :=
  match (if n ≤ 64 then bestDie free n else none) with
  | some l => l.take n
  | none => free.take n

/-- The link array of a new task queue: the slots in ascending order (entry 19). -/
def freshLinks (qcap : Nat) : List Byte :=
  ((List.range qcap).map (fun i => leBytes 2 (if i + 1 < qcap then i + 1 else (Config.endLink i).toNat))).flatten

/-- An MX at placement (01 R28 steps 3, 4 and 7). -/
def placedMx (image : Option (List (BitVec 512))) (entry mnow : Nat) : Mx :=
  match image with
  | some ls =>
    { Mx.fresh with st := .run, line := entry, store := (List.range ls.length).zip ls, nextM := mnow + 1 }
  | none => Mx.fresh

/-- Granules tagged at placement: the task-queue area is CLOSED (01 R27). -/
def queueGuards (qcap : Nat) : SMap (BitVec 2) :=
  (List.range ((Config.padSize - tqBase qcap) / 256)).map (fun i => (tqBase qcap / 256 + i, 3))

/-- A line of an image as a cluster's MX fetches it at launch: through the cluster's TLB, which keeps the translation (13 R304). `v` is the line
that the check read. DEDUCED (entry 71); unsafe. -/
def State.imageLine (w : Who) (va : Word) (v : BitVec 512) (s : State) : State × BitVec 512 :=
  match s.xlate w Need.load anyPlace va with
  | (s1, .ok pa) =>
    (s1, match s1.place pa with
      | .hbm | .pad _ _ | .store _ _ => s1.lineAt (localOf pa / 64)
      | .mmio | .host | .hole | .remote _ => v)
  | (s1, .fault _) => (s1, v)
  | (s1, .held) => (s1, v)

/-- Whether the home slices hold none of an image's lines from the fetch for a cluster (11 R275; 12 R298). -/
def imageFree (w : Who) : Word → List (BitVec 512) → State → State × Bool
  | _, [], s => (s, true)
  | va, _ :: l, s =>
    match s.xlate w Need.load anyPlace va with
    | (s1, .ok pa) =>
      (match s1.readLines w.waiter (s1.hbmLines pa 64) with
       | (s2, true) => imageFree w (va + 64) l s2
       | (s2, false) => (s2, false))
    | (s1, .fault _) => imageFree w (va + 64) l s1
    | (s1, .held) => (s1, false)

/-- Who fetches an image for a cluster at launch (13 R304). -/
def imageWho (s : State) (region k : Nat) : Who := { regionWho s region none with cluster := some k }

/-- Whether the images of a launch can be fetched now for every cluster of its span. -/
def State.imagesFree (region : Nat) (q : Launch) : List Nat → State → State × Bool
  | [], s => (s, true)
  | k :: l, s =>
    let lines := fun (i : Option (Word × List (BitVec 512))) (t : State) =>
      match i with
      | some (va, ls) => imageFree (imageWho t region k) va ls t
      | none => (t, true)
    match lines q.images.1 s with
    | (s1, false) => (s1, false)
    | (s1, true) =>
      match lines q.images.2 s1 with
      | (s2, false) => (s2, false)
      | (s2, true) => State.imagesFree region q l s2

/-- The lines of an image fetched for a cluster. -/
def imageFor (w : Who) : Word → List (BitVec 512) → State → State × List (BitVec 512)
  | _, [], s => (s, [])
  | va, v :: l, s =>
    let r := s.imageLine w va v
    let q := imageFor w (va + 64) l r.1
    (q.1, r.2 :: q.2)

/-- An MX's image fetched for a cluster, where the MX is enabled. -/
def fetchImage (w : Who) (image : Option (Word × List (BitVec 512))) (s : State) : State × Option (List (BitVec 512)) :=
  match image with
  | some (va, ls) => let r := imageFor w va ls s; (r.1, some r.2)
  | none => (s, none)

/-- One crew placed and seeded (01 R27, R28). -/
def State.placeCrew (s : State) (region serial rank k : Nat) (q : Launch) (seed : List Byte) : State :=
  let w := imageWho s region k
  let i0 := fetchImage w q.images.1 s
  let i1 := fetchImage w q.images.2 i0.1
  let s := i1.1
  let cl := (s.cluster k).vacant
  let cl1 : Cluster :=
    { cl with owner := .crew serial rank, guards := queueGuards q.qcap, ctxlim := q.ctxlim, binder := 3,
              tq := { TaskQueue.none with qcap := q.qcap }, mx0 := placedMx i0.2 q.entries.1 s.mnow,
              mx1 := placedMx i1.2 q.entries.2 s.mnow }
  let s1 := (s.setCluster k cl1).poke (tqLink k q.qcap 0) (freshLinks q.qcap)
  let s2 := (coresOf k).foldl (fun t n => t.setCore n { t.core n with lastSlot := 63 }) s1
  (s2.tqPush k seed).getD s2

/-- The seed of a launch: the template with the launch continuation's ARG1 and ARG2 (01 R25). -/
def seedOf (template : List Byte) (q : Cont) : List Byte :=
  template.take 40 ++ leBytes 8 q.arg1.toNat ++ leBytes 8 q.arg2.toNat ++ template.drop 56

/-- Placement of a span (01 R20, R28; 12 R285). -/
def State.placeSpan (s : State) (r : Region) (q : Cont) (l : Launch) (ks : List Nat) : State :=
  let serial := s.co.nextSerial
  let p : Span := ⟨serial, r.id, ks.map (fun k => ⟨k, false⟩), l.grid, 0, 0, 0, l.done, 0, false⟩
  let s1 := State.use { s with co := { s.co with nextSerial := serial + 1, spans := s.co.spans ++ [p] } } r.id
    (fun a => { a with usecl := a.usecl + ks.length })
  ((List.range ks.length).zip ks).foldl (fun t e => t.placeCrew r.id serial e.1 e.2 l (seedOf l.seed q)) s1

/-- Whether a launch queue's descriptor says that it has an entry of 64 bytes (12 R281). -/
def QDesc.hasLaunch (q : QDesc) (handle : Word) : Bool := q.usable && q.gen == field handle 63 48 && q.size == 64 && q.tail != q.head

/-- Whether a region's launch queue has a head entry (12 R281, R282); trouble of any kind makes the queue empty. A head that is held at its home
slice is there all the same. -/
def State.hasHead (s : State) (r : Region) : Bool :=
  let w := regionWho s r.id none
  r.lqh != 0 && match (s.deq w [] r.lqh 64 false).2 with
    | .ok (.entry _ _) => true
    | .ok .stale => false
    | .ok .empty => false
    | .fault _ => false
    | .held => (match (s.checkPart w Need.step hbmOnly (word (field r.lqh 47 0)) 64).2 with
        | .ok pa => (qRead s pa).hasLaunch r.lqh
        | .fault _ => false
        | .held => false)

/-- Bytes of parts told apart again. -/
def splitGot : List (Nat × Nat) → List Byte → List (Nat × List Byte)
  | [], _ => []
  | (pa, n) :: l, bs => (pa, bs.take n) :: splitGot l (bs.drop n)

/-- What the coordinator's read of a queue's head needs from elsewhere: the parts of the ring entry that lie at another device or at the host. -/
def State.ringGot (s : State) (w : Who) (handle : Word) (o : List Reply) : State × Res (List (Nat × List Byte) × List Reply) :=
  match s.ringEntry w false handle 64 with
  | none => (s, .ok ([], o))
  | some (va, _) =>
    match s.checkAccess w (Need.ring false) anyPlace va 64 with
    | (s1, .ok ps) =>
      if ps.any (fun p => s1.away p.1) then
        match partBytes w.waiter va ps o s1 with
        | (s2, .ok (bs, o1)) => (s2, .ok (splitGot ps bs, o1))
        | (s2, .fault f) => (s2, .fault f)
        | (s2, .held) => (s2, .held)
      else (s1, .ok ([], o))
    | (s1, .fault _) => (s1, .ok ([], o))
    | (s1, .held) => (s1, .held)

/-- The head entry of a region's launch queue, with the replies left over (12 R281): none where the queue is empty. -/
def State.launchHead (s : State) (r : Region) (o : List Reply) : State × Res (Option (List Byte) × List Reply) :=
  let w := regionWho s r.id none
  if r.lqh = 0 then (s, .ok (none, o))
  else match s.ringGot w r.lqh o with
    | (s0, .fault _) => (s0, .ok (none, o))
    | (s0, .held) => (s0, .held)
    | (s0, .ok (got, o1)) =>
      match s0.deq w got r.lqh 64 false with
      | (s1, .ok (.entry e _)) => (s1, .ok (some e, o1))
      | (s1, .ok .stale) => (s1, .ok (none, o1))
      | (s1, .ok .empty) => (s1, .ok (none, o1))
      | (s1, .fault _) => (s1, .ok (none, o1))
      | (s1, .held) => (s1, .held)

/-- The head entry removed, if the step can be made now. -/
def State.removeLaunch (s : State) (r : Region) (me : Option Waiter) : State × Bool :=
  match s.deq { regionWho s r.id none with place := me } [] r.lqh 64 true with
  | (s1, .ok (.entry _ _)) => (s1, true)
  | (s1, _) => (s1, false)

/-- A step undone but for the places that its requests have taken at home slices. -/
def State.keepPlaces (s t : State) : State := { s with waits := t.waits, walks := t.walks, io := { s.io with snoops := t.io.snoops }, row := t.row }

/-- The place that the post of a rejected launch's record takes at home slices: its retry tries it again. -/
def Region.waiter (r : Region) : Waiter := .row (.faultQueueRetry (.launch r.id []))

/-- A region no longer reserves (12 R283). -/
def State.unreserve (s : State) (id : Nat) : State :=
  { s with co := { s.co with reserving := s.co.reserving.filter (fun q => q.1 != id) } }

/-- The record of a rejected launch (13 R313). -/
def rejectRecord (e : List Byte) (f : FaultInfo) : List Byte :=
  asFaulted (leBytes 8 f.addr.toNat ++ leBytes 8 (trapInfo f 0).toNat ++ e.drop 16)

/-- A launch rejected (12 R281; 13 R313): its record goes to the region's fault queue, and the entry leaves the launch queue. -/
def State.rejectLaunch (s : State) (r : Region) (e : List Byte) (f : FaultInfo) : State :=
  let hold := fun (t : State) (next : Nat) =>
    { t with co := { t.co with launchRetry := t.co.launchRetry.insert r.id (f, next, e) } }
  match s.faultEnq { regionWho s r.id none with place := some r.waiter } (rejectRecord e f) with
  | (s1, .done _) =>
    (match s1.removeLaunch r (some r.waiter) with
     | (s2, true) => State.dropPlaces { s2 with co := { s2.co with launchRetry := s2.co.launchRetry.erase r.id } } (some r.waiter)
     | (s2, false) => hold (s.keepPlaces s2) s.now)
  | (s1, .full) => hold s1 (s1.now + retryGap)
  | (s1, .held) => hold s1 s1.now
  | (s1, .unusable) => s1.queueUnusable r.id none

/-- Whether a pre-emption has been accepted for a region (13 R318): no launch of its subtree is placed. -/
def State.toPreempt (s : State) (id : Nat) : Bool := s.co.preempts.any (fun j => (s.subtree j.region).any (fun r => r.id == id))

/-- Free clusters among the eligible (12 R284). -/
def State.freeEligible (s : State) (mask : Word) : List Nat := (s.eligible mask).filter (fun k => (s.cluster k).owner == .free)

/-- A launch that has passed its checks (12 R283): budget wait, reserving wait, or placement; false while its removal or an image's fetch is held. -/
def State.settleLaunch (s : State) (r : Region) (q : Cont) (l : Launch) : State × Bool :=
  let s0 := s.unreserve r.id
  if (s0.path r).any (fun p => decide (s0.maxClusters p < p.usecl + l.ncrew)) then (s0.setRegion { r with budget := true }, true)
  else
    let free := s0.freeEligible l.featmask
    if free.length < l.ncrew then
      ({ s0 with co := { s0.co with reserving := s0.co.reserving ++ [(r.id, s0.effPrio r)] } }, true)
    else match State.imagesFree r.id l (chooseClusters free l.ncrew) s0 with
      | (s1, false) => (s.keepPlaces s1, false)
      | (s1, true) =>
        match s1.removeLaunch r none with
        | (s2, true) => (s2.placeSpan r q l (chooseClusters free l.ncrew), true)
        | (s2, false) => (s.keepPlaces s2, false)

/-- The head launch of a region handled (12 R281); false while a check is held. -/
def State.handleLaunch (s : State) (r : Region) (e : List Byte) (o : List Reply) : State × Bool :=
  let q := contOf e
  if q.region != r.id then ((s.unreserve r.id).rejectLaunch r e (flt .priv 0), true)
  else if q.kind != 1 || q.pc != 0 || q.wp != 0 then ((s.unreserve r.id).rejectLaunch r e (flt .illegal 0), true)
  else match s.checkLaunch r q o with
    | (s1, .ok (l, _)) => s1.settleLaunch r q l
    | (s1, .fault f) => ((s1.unreserve r.id).rejectLaunch r e f, true)
    | (s1, .held) => (s1, false)

/-- The highest priority at which some launch or resume reserves. -/
def State.reserved (s : State) : Option Nat :=
  s.co.reserving.foldl (fun (m : Option Nat) q => some (match m with | none => q.2 | some p => Nat.max p q.2)) none

/-- Whether a region's head launch may be placed at all: the region is ACTIVE, its record is posted, and no pre-emption of it pends (12 R282; 13 R313,
R318). -/
def State.launchable (s : State) (r : Region) : Bool :=
  r.state == .active && !r.budget && (s.co.launchRetry.find? r.id).isNone && !s.toPreempt r.id

/-- Whether a region is a candidate (12 R282, R283), its head apart: a reserving launch is tested once for each return of a cluster. -/
def State.candidate (s : State) (r : Region) : Bool :=
  s.launchable r && match s.reserved with
    | none => true
    | some p => decide (p < s.effPrio r) || (s.co.retest.contains r.id && s.co.reserving.contains (r.id, p) && s.effPrio r == p)

/-- The candidates. -/
def State.candidates (s : State) : List Region := (s.co.regions.map (·.2)).filter (fun r => s.candidate r && s.hasHead r)

/-- The region that a selection takes (12 R282): the highest effective priority, then the first ID after the last chosen there. -/
def State.selected (s : State) (l : List Region) : Option Region :=
  let top := l.foldl (fun n r => Nat.max n (s.effPrio r)) 0
  let ids := (l.filter (fun r => s.effPrio r == top)).map (·.id)
  match nextAfter (s.co.chosen.getD top (2 ^ 32 - 1)) ids with
  | some id => l.find? (fun r => r.id == id)
  | none => none

/-- The region whose head launch the coordinator handles: the one selected and not handled yet, or the one that a selection takes, which moves
the position of its priority (12 R282). -/
def State.selectLaunch (s : State) : State × Option Region :=
  match s.co.handling.bind s.region? with
  | some r => (s, some r)
  | none =>
    match s.selected s.candidates with
    | none => ({ s with co := { s.co with handling := none } }, none)
    | some r =>
      ({ s with co := { s.co with chosen := s.co.chosen.insert (s.effPrio r) r.id, handling := some r.id,
                                  retest := s.co.retest.filter (· != r.id) } }, some r)

/-- LAUNCH_SELECTION (12 R281 to R285): one launch at a time; a launch whose check is held is handled on by the next of these steps. -/
def execLaunchSelection (outside : List Reply) (s : State) : Host.Outcome State Fault Refusal :=
  match s.selectLaunch with
  | (s1, none) => .next s1
  | (s1, some r) =>
    let ended := fun (t : State) => { t with co := { t.co with handling := none } }
    if !s1.launchable r then .next (ended s1)
    else match s1.launchHead r outside with
      | (s2, .ok (some e, o)) =>
        let q := s2.handleLaunch r e o
        .next (if q.2 then ended q.1 else q.1)
      | (s2, .ok (none, _)) => .next (ended s2)
      | (s2, .fault _) => .next (ended s2)
      | (s2, .held) => .next s2

/-- Whether a region is ACTIVE. -/
def State.regionActive (s : State) (id : Nat) : Bool := ((s.region? id).map (·.state)) == some .active

/-- A context's dispatch made again (13 R311): one that a full queue turned away, not while the context is HELD, nor in a region that is not ACTIVE or
quiesces; one whose release or whose step is held, whatever comes (13 R315, R319). -/
def State.retryContext (s : State) (c : Nat) : State :=
  match s.ctx? c with
  | some x =>
    match x.st with
    | .waiting (.dispatch f w next full) =>
      let double := x.level == .supervisor
      if next ≤ s.now && (!full || (!x.held && s.regionActive x.region && !s.quiescing (clusterOf c))) then
        let t := s.dispatch c x f w double
        match (t.ctx? c).map (fun y => y.st) with
        | some (CtxState.waiting (WaitFor.dispatch _ _ _ false)) => t
        | _ => t.dropWaits c
      else s
    | _ => s
  | none => s

/-- The oldest notice of a cluster posted again (13 R313). -/
def State.retryNotice (s : State) (k : Nat) : State :=
  match (s.cluster k).notices with
  | q :: rest =>
    if q.next ≤ s.now && !s.quiescing k && ((s.crewRegion? k).map s.regionActive).getD false then
      (s.setCluster k { s.cluster k with notices := rest }).postRecord k q.rcd q.unit
    else s
  | [] => s

/-- A rejected launch's record posted again (13 R313), while its entry still heads the queue: another head is checked anew (12 R281). -/
def State.retryLaunch (s : State) (id : Nat) (o : List Reply) : State :=
  let forget := fun (t : State) => { t with co := { t.co with launchRetry := t.co.launchRetry.erase id } }
  match s.region? id, s.co.launchRetry.find? id with
  | some r, some (f, next, e) =>
    if next ≤ s.now && r.state == .active then
      match s.launchHead r o with
      | (s1, .ok (some e', _)) => if e' = e then s1.rejectLaunch r e f else forget s1
      | (s1, .ok (none, _)) => forget s1
      | (s1, .fault _) => forget s1
      | (s1, .held) => s1
    else s
  | _, _ => s

/-- FAULT_QUEUE_RETRY (13 R311, R313): a refused entry is tried by its binder. -/
def execFaultQueueRetry (who : RetryAgent) (s : State) : Host.Outcome State Fault Refusal :=
  match who with
  | .context c => .next (s.retryContext c)
  | .binder k => execBind k s
  | .launch id outside => .next (s.retryLaunch id outside)
  | .notice k => .next (s.retryNotice k)

end Sys2Proof.Machine
end

