-- ==== Sys2Proof/Machine/Preempt.lean ====
section
/-! DEFINITION. Region commands (15 R351), pre-emption, the state image and resume (13 R318 to R322). -/
namespace Sys2Proof.Machine

/-- PARENT as it stands in an RCB (01 R22): 0 is the root; a physical address that is none of this device's HBM names no RCB that the device
knows. -/
def State.parentOf (s : State) (p : Nat) : Option Nat :=
  if p = 0 then none else some (if s.place p = .hbm then localOf p else Config.localEnd + p)

/-- The RCB at a local address, as the device reads it (01 R22, R24): what it uses is counted from 0. DESIGN CHOICE (entry 26); safe. -/
def State.readRcb (s : State) (a : Nat) : Region where
  rcb := a
  id := s.peek a 4
  state := .inactive
  prio := s.peek (a + 4) 1 % 8
  ovr := BitVec.ofNat 16 (s.peek (a + 6) 2)
  parent := s.parentOf (s.peek (a + 8) 8)
  maxcl := s.peek (a + 16) 2
  maxctx := s.peek (a + 18) 4
  ceshare := s.peek (a + 22) 1
  hbmq := s.peek (a + 24) 6
  asid := BitVec.ofNat 16 (s.peek (a + 32) 2)
  ptroot := s.peek (a + 40) 8
  fqh := s.peek64 (a + 48)
  hndl := s.peek64 (a + 56)
  gtb := s.peek64 (a + 64)
  dtb := s.peek64 (a + 72)
  lqh := s.peek64 (a + 80)
  usecl := 0
  usectx := 0
  usehbm := 0
  budget := false

/-- The command at the head of the queue, if it is one the coordinator completes now: pending pre-emptions come first (15 R351). -/
def State.headCmd (s : State) : Option RegCmd :=
  match s.ctl.regcmd with
  | q :: _ => if s.co.preempts.isEmpty || q.cmd = 2 then some q else none
  | [] => none

/-- The head command removed from the queue. -/
def State.popCmd (s : State) : State := { s with ctl := { s.ctl with regcmd := s.ctl.regcmd.drop 1 } }

/-- The head command completed with a result. -/
def State.endCmd (s : State) (result : Nat) : State := s.popCmd.cmdDone result

/-- Whether a command word names no command (15 R351). -/
def RegCmd.isBad (q : RegCmd) : Bool := q.bad || q.cmd = 0 || 5 < q.cmd

/-- Whether an RCB address lies in local HBM, all of it (15 R351). -/
def State.rcbOk (s : State) (a : Nat) : Bool := s.place a == .hbm && s.place (a + 255) == .hbm

/-- The region of an RCB, if the device knows it. -/
def State.regionAt (s : State) (a : Nat) : Option Region := (List.find? (fun e => e.2.rcb == localOf a) s.co.regions).map (·.2)

/-- The lines of an RCB at a local address. -/
def rcbLines (a : Nat) : List Nat := [a / 64, a / 64 + 1, a / 64 + 2, a / 64 + 3]

/-- Commands of one kind: a word that names none completes with BADCMD, an RCB that cannot be one with BADRCB. A command whose RCB is held waits. -/
def State.onCmd (s : State) (cmd : Nat) (f : RegCmd → State → State) : State :=
  match s.headCmd with
  | some q =>
    if q.isBad then s.endCmd 6
    else if q.cmd != cmd then s
    else if !s.rcbOk q.rcb then s.endCmd 2
    else match s.readLines none (rcbLines (localOf q.rcb)) with
      | (s1, true) => f q s1
      | (s1, false) => s1
  | none => s

/-- Levels of the path of a region that would stand below a parent (01 R23). -/
def State.depthBelow (s : State) (parent : Option Nat) : Nat :=
  match parent.bind (fun p => (List.find? (fun e => e.2.rcb == p) s.co.regions).map (·.2)) with
  | some p => (s.path p).length + 1
  | none => 1

/-- Whether a region's parent lets it be ACTIVE: it has none, or an ACTIVE one (15 R351). -/
def State.parentActive (s : State) (r : Region) : Bool :=
  r.parent.isNone || s.co.regions.any (fun e => some e.2.rcb == r.parent && e.2.state == .active)

/-- A region known by another number from now on: its RCB, spans, contexts, images and operations under way keep to it. -/
def State.renameRegion (s : State) (old new : Nat) : State :=
  let f := fun (n : Nat) => if n = old then new else n
  let g := fun (e : Nat × Ctx) => (e.1, { e.2 with rid := f e.2.rid })
  match s.region? old with
  | none => s
  | some r =>
    { s with
      ctxs := s.ctxs.map g,
      cores := s.cores.map (fun e => (e.1, { e.2 with path := e.2.path.map (fun p => { p with region := f p.region }) })),
      gldms := s.gldms.map (fun q => { q with region := f q.region }),
      co := { s.co with
        regions := (s.co.regions.erase old).insert new { r with id := new },
        spans := s.co.spans.map (fun p => { p with region := f p.region }),
        reserving := s.co.reserving.map (fun q => (f q.1, q.2)),
        preempts := s.co.preempts.map (fun j => { j with region := f j.region }),
        images := s.co.images.map (fun im => { im with region := f im.region, regions := im.regions.map f,
                                                       clusters := im.clusters.map (fun sc => { sc with ctxs := sc.ctxs.map g }) }),
        resumes := s.co.resumes.map (fun q => (f q.1, q.2)) },
      engines := s.engines.map (fun e => (e.1, { e.2 with queue := e.2.queue.map (fun c => { c with region := f c.region }) })) }

/-- The number under which the device keeps a region whose ID another has taken: the ID stands in its low 32 bits. -/
def Region.aside (r : Region) : Nat := (r.rcb / 256 + 1) * 2 ^ 32 + r.id % 2 ^ 32

/-- A region ID made free for a region to be ACTIVE under (15 R351): none where it is active already. A PRE-EMPTED or HALTED region that has it
is kept aside, with the clusters that it still holds. DEDUCED (entry 52); unsafe. -/
def State.claimId (s : State) (id : Nat) : Option State :=
  match s.region? id with
  | none => some s
  | some r =>
    if r.state == .active then none else some (s.renameRegion id r.aside)

/-- ACTIVATE (01 R23, R24; 15 R351). -/
def execActivate (s : State) : Host.Outcome State Fault Refusal :=
  .next (s.onCmd 1 (fun q s =>
    let a := localOf q.rcb
    let r := s.readRcb a
    if (s.regionAt a).isSome || s.peek (a + 5) 1 != 0 || r.id = 0 || !s.parentActive r then s.endCmd 2
    else match s.claimId r.id with
      | none => s.endCmd 2
      | some s1 =>
        if 8 < s1.depthBelow r.parent then s.endCmd 1
        else ((s1.setRegion r).setRegionState r.id .active).endCmd 0))

/-- HALT (15 R351). DEDUCED (entry 52); unsafe. -/
def execHaltCommand (s : State) : Host.Outcome State Fault Refusal :=
  .next (s.onCmd 4 (fun q s =>
    match s.regionAt q.rcb with
    | some r => if r.state = .active || r.state = .preempted then (s.haltRegions r.id none).endCmd 0 else s.endCmd 2
    | none => s.endCmd 2))

/-- DEACTIVATE (15 R351). An RCB that the device does not know and whose STATE is 3 or more is HALTED (01 R22). -/
def execDeactivate (s : State) : Host.Outcome State Fault Refusal :=
  .next (s.onCmd 5 (fun q s =>
    match s.regionAt q.rcb with
    | some r =>
      if r.state = .halted && r.usecl = 0 then
        let s1 := s.setRegionState r.id .inactive
        State.endCmd { s1 with co := { s1.co with regions := s1.co.regions.erase r.id } } 0
      else s.endCmd 2
    | none => if 3 ≤ s.peek (localOf q.rcb + 5) 1 then (s.coWrite (localOf q.rcb + 5) [0]).endCmd 0 else s.endCmd 2))

/-- Clusters held by the ACTIVE regions of a subtree, rising. -/
def State.subtreeClusters (s : State) (id : Nat) : List Nat :=
  (s.clusters.map (·.1)).filter (fun k => match s.crewRegion? k with
    | some r => (s.subtree id).any (fun q => q.id == r && q.state == .active)
    | none => false)

/-- Whether an image area is aligned and lies in local HBM (13 R320). -/
def State.areaOk (s : State) (image n : Nat) : Bool :=
  image % 65536 == 0 && s.place image == .hbm && (n == 0 || s.place (image + n * Config.imageStride - 1) == .hbm)

/-- PREEMPT accepted (13 R318): it pends until the coordinator performs it. DEDUCED (entry 52); unsafe. -/
def execPreempt (s : State) : Host.Outcome State Fault Refusal :=
  .next (s.onCmd 2 (fun q s =>
    match s.regionAt q.rcb with
    | some r =>
      if r.state != .active then s.endCmd 2
      else if !s.areaOk q.image (s.subtreeClusters r.id).length then s.endCmd 3
      else
        let s1 := s.popCmd
        { s1 with co := { s1.co with preempts := s1.co.preempts ++ [⟨r.id, localOf q.image, false⟩] } }
    | none => s.endCmd 2))

/-- The pending pre-emption performed next: the lowest effective priority, then the lowest region ID (13 R318). -/
def State.nextPreempt (s : State) : Option PreemptJob :=
  let prio := fun (j : PreemptJob) => ((s.region? j.region).map s.effPrio).getD 0
  s.co.preempts.foldl (fun (m : Option PreemptJob) j =>
    match m with
    | none => some j
    | some i => some (if prio j < prio i || (prio j == prio i && j.region < i.region) then j else i)) none

/-- A pre-emption ends: its command completes. -/
def State.endPreempt (s : State) (j : PreemptJob) (result : Nat) : State :=
  State.cmdDone { s with co := { s.co with preempts := s.co.preempts.erase j } } result

/-- A pre-emption begins. -/
def startJob (j : PreemptJob) : List PreemptJob → List PreemptJob
  | [] => []
  | i :: l => if i = j then { i with started := true } :: l else i :: startJob j l

/-- A context told to quiesce (13 R319): a YIELD drops its delay, a fetch that is held is given up, and a deferral is withdrawn from its slice. -/
def State.quiesceCtx (s : State) (c : Nat) : State :=
  match (s.ctx? c).map (fun x => x.st) with
  | some CtxState.fetching => (s.dropWaits c).modCtx c (fun x => { x with st := .idle })
  | some (CtxState.yielding _) => s.modCtx c (fun x => { x with st := .idle })
  | some (CtxState.waiting (.future _ _)) => (s.undefer c).dropWaits c
  | some (CtxState.waiting (.phase _ _ _ _)) => (s.undefer c).dropWaits c
  | _ => s.undefer c

/-- A cluster told to quiesce (13 R319): its contexts, and its seal timers, whose remaining delay is saved. -/
def State.quiesceCluster (s : State) (k : Nat) : State :=
  let s1 := (s.boundIn k).foldl State.quiesceCtx s
  let cl := s1.cluster k
  s1.setCluster k { cl with timers := stopTimers (s.cycleOf (dieOfCluster k)) cl.timers }

/-- Line registrations of some regions' copies removed (13 R319). -/
def State.unregister (s : State) (ids : List Nat) : State :=
  { s with engines := s.engines.map (fun e => (e.1, { e.2 with
      queue := e.2.queue.map (fun c => if ids.contains c.region then { c with lines := [] } else c) })) }

/-- PREEMPTION_EVENT (13 R318, R319): one pre-emption at a time; each cluster of the subtree quiesces. A region that is not ACTIVE is left as it
is. -/
def execPreemptionEvent (s : State) : Host.Outcome State Fault Refusal :=
  if s.co.preempts.any (·.started) then .next s
  else match s.nextPreempt with
    | none => .next s
    | some j =>
      if ((s.region? j.region).map (·.state)) != some .active then .next (s.endPreempt j 2)
      else
        let ks := s.subtreeClusters j.region
        let ids := ((s.subtree j.region).filter (fun r => r.state == .active)).map (·.id)
        let s1 := { s with co := { s.co with preempts := startJob j s.co.preempts } }
        .next ((ks.foldl State.quiesceCluster s1).unregister ids)

/-- Whether a context has acknowledged (13 R319): it is at an instruction boundary, or its wait is saved as it stands; a fault's dispatch is, only
when a full queue has turned it away. -/
def CtxState.quiet (t : CtxState) : Bool :=
  match t with
  | .idle => true
  | .waiting (.sfu _) => false
  | .waiting (.dispatch _ _ _ full) => full
  | .waiting _ => true
  | .reply | .retry | .fetching | .remote _ | .row _ | .glean _ _ _ _ _ | .gst _ _ _ | .yielding _ => false

/-- Whether a cluster has completed its count of acknowledgements (13 R319): the copies that have ended and wait for their writes, and an
element of one that waits for its answer, are among them. -/
def State.quiet (s : State) (k : Nat) : Bool :=
  (s.boundIn k).all (fun c => ((s.ctx? c).map (·.st.quiet)).getD true) && (s.mx k .mx0).flight.isEmpty && (s.mx k .mx1).flight.isEmpty &&
  !s.co.queries.any (fun q => clusterOf q.ctx == k) && !s.gldms.any (fun q => clusterOf q.ctx == k) &&
  !s.engines.any (fun e => e.2.ending.any (fun q => q.core / 4 == k) || e.2.queue.any (fun q => q.asked.isSome && q.core / 4 == k)) &&
  !s.promised k 0 Config.padSize

/-- MAGIC of an image header (13 R320). -/
def imageMagic : Nat := 0x474D4953
/-- Offset of the control block in a cluster image. -/
def controlAt : Nat := 0xC31000
/-- Offset of an MX block. -/
def mxBlockAt (u : MxUnit) : Nat := match u with | .mx0 => 0x900000 | .mx1 => 0xA98800

/-- Bytes of memory moved with their uncorrectable granules. -/
def State.moveBytes (s : State) (src dst n : Nat) : State :=
  let moved := (s.bad.filter (fun g => src / 8 ≤ g && g < (src + n) / 8)).map (fun g => g - src / 8 + dst / 8)
  { s with mem := memMove s.mem src dst n, bad := moved.foldl (fun l g => insertNat g l) (badAfter s.bad dst n) }

/-- n bytes of an image that hold something, in a layout that the spec does not give: a free function of what they hold.
DESIGN CHOICE (entry 22); safe. -/
def laidBytes (part : Nat) (holds : List Nat) (n : Nat) : List Byte := (List.range n).map (Config.imageByte part holds)

/-- Bytes of an image that hold nothing of which the rule speaks: free values. DESIGN CHOICE (entry 22); safe. -/
def State.scribble (s : State) (base k off n : Nat) : State := s.poke (base + off) (laidBytes 0 [s.freeUse, k, off] n)

/-- n bytes that hold something, the remaining ones zero (13 R320). -/
def partBlock (part : Nat) (holds : List Nat) (n : Nat) : List Byte :=
  (laidBytes part holds (Nat.min n (Config.imageTakes part holds)) ++ List.replicate n 0).take n

/-- What a pending write is, for an image. -/
def Pending.holds (p : Pending) : List Nat :=
  p.land :: match p.reg with
    | .v n mask val => [0, n, mask.toNat] ++ val.map (fun (x : Word32) => x.toNat)
    | .p n mask val => [1, n, mask.toNat, val.toNat]
    | .s n val => [2, n, val.toNat]
    | .h n val => [3, n] ++ (val.map (fun x => [x.off, x.hdr.toNat])).getD []
    | .b n val => [4, n] ++ (val.map (fun x => [x.off, x.extent])).getD []

/-- Number of an MX's run state. -/
def MxState.num : MxState → Nat
  | .off => 0
  | .run => 1
  | .faulted => 2
  | .halted => 3

/-- What the last part of an MX block holds (13 R320): p, s and h registers with cached headers, MXPC, count, state, extents of the loaded slots, hold
shelf and pending writes. -/
def Mx.holds (m : Mx) : List Nat :=
  (List.range 8).map (fun i => (m.p.getD i 0).toNat) ++ (List.range 32).map (fun i => (m.s.getD i 0).toNat) ++
    (m.h.map (fun e => [e.1, e.2.off, e.2.hdr.toNat])).flatten ++ [m.line, m.bundle, m.count, m.st.num] ++
    (m.b.map (fun e => [e.1, e.2.extent])).flatten ++ m.shelf ++ (m.pend.map Pending.holds).flatten

/-- What a saved wait is, for an image. -/
def WaitFor.holds (w : WaitFor) : List Nat :=
  match w with
  | .event d mask => [1, d.toNat, mask.toNat]
  | .future d pa => [2, d.toNat, pa]
  | .phase d desc span token => [3, d.toNat, (desc.map (· + 1)).getD 0, span, token]
  | .sealing d hdr u => [4, d.toNat, hdr, MxUnit.toNat u]
  | .tag d t => [5, d.toNat, t]
  | .anyTag d mask => [6, d.toNat, mask.toNat]
  | .sfu n => [7, n]
  | .dispatch f word _ _ => [8, f.code, f.addr.toNat, f.detail, f.acc, if f.walk then 1 else 0, f.mrank, word.toNat]

/-- What a slot record holds (13 R320): state, PC, WP, binding words, ARG0 to ARG2, FCSR, EVENTS, held event bits and the saved wait. An IDLE slot's
holds nothing but its state. -/
def slotHolds (x : Option Ctx) : List Nat :=
  match x with
  | none => [0]
  | some x =>
    let wait := match x.st with
      | .waiting w => w.holds
      | .idle | .reply | .retry | .fetching | .remote _ | .row _ | .glean _ _ _ _ _ | .gst _ _ _ | .yielding _ => []
    [1 + (if x.held then 1 else 0), x.pc.toNat, x.wp.toNat, x.bind2.toNat, x.bind3.toNat, x.arg0.toNat, x.arg1.toNat, x.arg2.toNat, x.fcsr.toNat,
      x.events.toNat, 0] ++ wait

/-- What a completion tag holds, with its fault slot. -/
def Tag.holds (t : Tag) : List Nat := [t.count, if t.fault then 1 else 0, t.fr0.toNat, t.fr1.toNat, t.fr2.toNat, t.fr3.toNat]

/-- What a seal timer is, for an image. -/
def Timer.holds (t : Timer) : List Nat := [t.hdr, t.deadline.toNat, MxUnit.toNat t.unit, t.opener, (t.left.map (· + 1)).getD 0]

/-- What an entry of a pending queue is, for an image: header granule, kind of requester and requester. -/
def SealReq.holds (q : SealReq) : List Nat :=
  (q.hdr / 256) :: match q.who with
    | .context c => [0, c]
    | .timer o => [1, o]
    | .unit u => [2, MxUnit.toNat u]

/-- What the last part of the control block holds (13 R320): lanes, free list, QCAP, handler FIFO and freeze state. -/
def Cluster.holds (cl : Cluster) : List Nat :=
  (cl.tq.lanes.map (fun l => [l.head, l.tail, l.count])).flatten ++ [cl.tq.free, cl.tq.qcap, if cl.frozen then 1 else 0] ++
    (cl.handlers.map (fun h => [(h.slot.map (· + 1)).getD 0, h.pos.toNat, h.pc.toNat, h.info.toNat, h.addr.toNat])).flatten

/-- An accumulator as an image holds it (13 R320): body, header, mask and lost mark, in that order. DEDUCED (entry 25); unsafe. -/
def accBytes (a : Acc) : List Byte :=
  let row := fun (r : List Word32) => ((r.map (fun (v : Word32) => leBytes 4 v.toNat)).flatten ++ List.replicate (hStride a.hdr) 0).take (hStride a.hdr)
  ((a.rows.map row).flatten ++ List.replicate 0x10000 (0 : Byte)).take 0x10000 ++ leBytes 32 a.hdr.toNat ++ leBytes 32 a.mask.toNat ++
    [if a.lost then 1 else 0]

/-- An accumulator read back. -/
def State.readAcc (s : State) (a : Nat) : Acc :=
  let h := s.hdrAt (a + 0x10000)
  ⟨h, BitVec.ofNat 256 (s.peek (a + 0x10020) 32),
    (List.range (hRows h)).map (fun i => (List.range (hCols h)).map (fun j => BitVec.ofNat 32 (s.peek (a + hStride h * i + 4 * j) 4))),
    s.peek (a + 0x10040) 1 % 2 == 1⟩

/-- Where an MX block holds accumulator n. -/
def accAt (n : Nat) : Nat := 0x100000 + 0x10100 * n

/-- An MX block (13 R320): the weight buffers in stored form, the accumulators, the bundle store, the v registers, and the rest. -/
def State.writeMxBlock (s : State) (base k : Nat) (u : MxUnit) (m : Mx) : State :=
  let o := mxBlockAt u
  let s1 := s.scribble base k o 0x198800
  let s2 := m.b.foldl (fun t e => t.poke (base + o + 0x40000 * e.1) (memRead e.2.cells 0 e.2.extent)) s1
  let s2 := (List.range 8).foldl (fun t n => t.poke (base + o + accAt n) (accBytes (m.c.getD n Acc.empty))) s2
  let s3 := s2.poke (base + o + 0x180800) (((List.range 1024).map (fun i => leBytes 64 (m.store.getD i 0).toNat)).flatten)
  let s4 := s3.poke (base + o + 0x190800) (((List.range 32).map (fun i => ((m.vreg i).map (fun v => leBytes 4 v.toNat)).flatten)).flatten)
  s4.poke (base + o + 0x194800) (laidBytes 1 m.holds 0x4000)

/-- The bytes of the guard tags: 2 bits for each granule, in ascending order (13 R320). -/
def guardBytes (cl : Cluster) : List Byte :=
  (List.range 8192).map (fun i => BitVec.ofNat 8 (cl.guard (4 * i) + 4 * cl.guard (4 * i + 1) + 16 * cl.guard (4 * i + 2) + 64 * cl.guard (4 * i + 3)))

/-- The image header (13 R320): its fields in the order of the rule, 4 bytes each and the size 8 (entry 32). -/
def headerBytes (region k rank serial : Nat) : List Byte :=
  leBytes 4 imageMagic ++ leBytes 4 1 ++ leBytes 4 region ++ leBytes 4 k ++ leBytes 4 rank ++ leBytes 4 serial ++ leBytes 8 Config.imageBytes

/-- The pending queues of both shelves (13 R320): 4 bytes an entry, in arrival order, the remaining bytes zero. -/
def queueBytes (q0 q1 : List SealReq) : List Byte :=
  let entries := fun (q : List SealReq) => (q.map (fun e => laidBytes 2 e.holds 4)).flatten
  let split := Nat.max q0.length (Nat.min (Config.queueSplit 0) (1280 - q1.length))
  (entries q0 ++ List.replicate (4 * (split - q0.length)) 0 ++ entries q1 ++ List.replicate 0x1400 0).take 0x1400

/-- The parts of the control block after the header and the guard tags (13 R320). -/
def State.controlBytes (s : State) (k : Nat) : List Byte :=
  let cl := s.cluster k
  let timers := (cl.timers.map (fun t => laidBytes 3 t.holds 16)).flatten
  ((List.range 256).map (fun i => laidBytes 4 (slotHolds (s.ctx? (256 * k + i))) 64)).flatten ++
    ((List.range 256).map (fun i => laidBytes 5 (s.tag (4 * k + i / 64) (i % 64)).holds 64)).flatten ++
    (timers ++ laidBytes 0 [s.freeUse, k] 0x400).take 0x400 ++ queueBytes cl.mx0.queue cl.mx1.queue ++ partBlock 6 cl.holds 0x700

/-- The image of a cluster written (13 R320). -/
def State.writeImage (s : State) (base region k : Nat) : State :=
  let cl := s.cluster k
  let own := ((s.crew? k).map (fun q => q)).getD (0, 0)
  let s1 := (s.moveBytes (padAddr k 0) base Config.padSize).moveBytes (Config.storeBase + 4 * k * Config.storeSize) (base + 0x800000) 0x100000
  let s2 := (s1.writeMxBlock base k .mx0 cl.mx0).writeMxBlock base k .mx1 cl.mx1
  let s3 := s2.scribble base k controlAt 0x100
  ((s3.poke (base + controlAt) (headerBytes (region % 2 ^ 32) k own.2 (own.1 % 2 ^ 24))).poke (base + controlAt + 0x100) (guardBytes cl)).poke
    (base + controlAt + 0x2100) (s.controlBytes k)

/-- A cluster saved, and returned to the free pool (13 R320): USECL and USECTX go on counting. The image holds no free map of workspaces (01 R12):
that of the crew is kept beside it and comes back at the resume, and the next crew finds every pool workspace free. DESIGN CHOICE (entry 25);
unsafe. -/
def State.saveCluster (s : State) (base region k : Nat) : State × SavedCluster :=
  let mine := s.boundIn k
  let sc : SavedCluster :=
    ⟨k, base, s.cluster k, mine.filterMap (fun c => (s.ctx? c).map (fun x => (c, x))), (coresOf k).map s.core,
      s.parked.filter (fun p => p.core / 4 == k), []⟩
  let s1 := (mine.foldl State.dropCtx (s.writeImage base region k)).setCluster k (s.cluster k).vacant
  ((coresOf k).foldl (fun t n => t.setCore n { t.core n with tags := [], used := [] })
    { s1 with parked := s1.parked.filter (fun p => p.core / 4 != k) }, sc)

/-- The clusters of a subtree saved, in ascending index (13 R320). -/
def State.saveAll (image : Nat) : List Nat → Nat → State → State × List SavedCluster
  | [], _, s => (s, [])
  | k :: l, i, s =>
    let r := s.saveCluster (image + i * Config.imageStride) ((s.crewRegion? k).getD 0) k
    let q := State.saveAll image l (i + 1) r.1
    (q.1, r.2 :: q.2)

/-- The copies of some regions stay where they are, between elements: what other devices keep for an element of one is given up, and it asks again later
(13 R319; entry 63). -/
def State.restCopies (s : State) (ids : List Nat) : State :=
  let mine := fun (c : CopyCmd) => ids.contains c.region
  let s1 := (((s.engines.map (fun e => e.2.queue)).flatten).filter mine).foldl (fun t c => t.forgoCopy c []) s
  { s1 with engines := s1.engines.map (fun e => (e.1, { e.2 with
      queue := e.2.queue.map (fun c => if mine c then { c with got := [], granted := [] } else c) })) }

/-- COPY_OUT (13 R320): once every cluster of the subtree has acknowledged, and the host holds no line of the area (14 R337), the images are
written, TLB entries of the subtree's ASIDs are removed, the clusters are free, and the regions are PRE-EMPTED. -/
def execCopyOut (s : State) : Host.Outcome State Fault Refusal :=
  match s.co.preempts.find? (·.started) with
  | none => .next s
  | some j =>
    if ((s.region? j.region).map (·.state)) != some .active then .next (s.endPreempt j 2)
    else
      let ks := s.subtreeClusters j.region
      let kept := s.io.hostHolds.filter (fun l => j.image ≤ 64 * l && 64 * l < j.image + ks.length * Config.imageStride)
      if !ks.all s.quiet then .next s
      else if !kept.isEmpty then .next { s with io := { s.io with snoops := (kept.filter (fun l => !s.io.snoops.contains l)) ++ s.io.snoops } }
      else
        let ids := ((s.subtree j.region).filter (fun r => r.state == .active)).map (·.id)
        let asids := ids.map (fun id => s.effOf id 5 (·.asid) 0)
        let r : State × List SavedCluster := State.saveAll j.image ks 0 { s with freeUse := s.freeUse + 1 }
        let co : Coordinator := r.1.co
        let s1 : State := { r.1 with co := { co with images := co.images ++ [⟨j.region, j.image, ids, r.2⟩], retest := co.reserving.map (·.1) } }
        let s2 := (s1.filterTlbs (fun e => !asids.contains e.asid)).restCopies ids
        .next ((ids.foldl (fun t id => t.setRegionState id .preempted) s2).endPreempt j 0)

/-- Whether a saved cluster's image header matches (13 R321). -/
def State.headerOk (s : State) (sc : SavedCluster) : Bool :=
  let a := sc.base + controlAt
  let region := match sc.cl.owner with
    | .crew n _ => ((s.span? n).map (·.region)).getD 0
    | .free | .draining _ _ => 0
  s.peek a 4 == imageMagic && s.peek (a + 8) 4 == region % 2 ^ 32 && s.peek (a + 24) 8 == Config.imageBytes

/-- The use counts of a region's ancestors changed (01 R23). -/
def State.useAbove (s : State) (r : Region) (f : Region → Region) : State :=
  ((s.path r).drop 1).foldl (fun t q => let q' := f q; (t.setRegion q').pokeUse q') s

/-- A region's RCB read again (01 R24): its state and use counts are the device's own. Under another parent its use counts against the new
ancestors, and no more against the old ones (01 R23). -/
def State.rereadRcb (s : State) (id : Nat) : State :=
  match s.region? id with
  | some r =>
    let n := { s.readRcb r.rcb with id := id, state := r.state, usecl := r.usecl, usectx := r.usectx, usehbm := r.usehbm }
    if n.parent = r.parent then s.setRegion n
    else
      let s1 := s.useAbove r (fun q => { q with usecl := q.usecl - r.usecl, usectx := q.usectx - r.usectx, usehbm := q.usehbm - r.usehbm })
      (s1.setRegion n).useAbove n (fun q => { q with usecl := q.usecl + r.usecl, usectx := q.usectx + r.usectx, usehbm := q.usehbm + r.usehbm })
  | none => s

/-- REGIONID of an RCB as it stands in memory (01 R22). -/
def State.rcbId (s : State) (a : Nat) : Nat := s.peek a 4

/-- The regions at some RCBs under the IDs that these hold now (01 R24; 15 R351): none where one of the IDs is active. -/
def State.reclaimIds (s : State) : List Nat → Option State
  | [] => some s
  | a :: l =>
    match s.regionAt a with
    | none => s.reclaimIds l
    | some r =>
      if r.id = s.rcbId a then s.reclaimIds l
      else match s.claimId (s.rcbId a) with
        | none => none
        | some t => (t.renameRegion r.id (s.rcbId a)).reclaimIds l

/-- Whether some IDs may be those of active regions together: none is 0, and none stands twice (15 R351). -/
def idsOk : List Nat → Bool
  | [] => true
  | id :: l => id != 0 && !l.contains id && idsOk l

/-- RESUME (13 R321 steps 1 to 3; 15 R351): the headers are checked, the RCBs read again, and the resume waits, reserving, for its
clusters. The command completes here, since software may end the wait by another command. DEDUCED (entry 52); unsafe. -/
def execResume (s : State) : Host.Outcome State Fault Refusal :=
  .next (s.onCmd 3 (fun q s =>
    match s.regionAt q.rcb with
    | some r =>
      if r.state != .preempted || !s.parentActive r || s.co.resumes.any (fun p => p.1 == r.id) then s.endCmd 2
      else match s.co.images.find? (fun im => im.region == r.id && im.image == localOf q.image && s.place q.image == .hbm) with
        | none => s.endCmd 3
        | some im =>
          let rcbs := im.regions.filterMap (fun id => (s.region? id).map (·.rcb))
          match s.readLines none (im.clusters.map (fun sc => (sc.base + controlAt) / 64) ++ (rcbs.map rcbLines).flatten) with
          | (s', false) => s'
          | (s', true) =>
          if !im.clusters.all s'.headerOk then s'.endCmd 3
          else if !idsOk (rcbs.map s'.rcbId) then s'.endCmd 2
          else match s'.reclaimIds rcbs with
          | none => s'.endCmd 2
          | some s0 =>
            let id := s'.rcbId r.rcb
            let s1 := (rcbs.map s'.rcbId).foldl (fun t id => (t.rereadRcb id).endBudgetWaits id) s0
            let prio := ((s1.region? id).map s1.effPrio).getD 0
            State.endCmd { s1 with co := { s1.co with resumes := s1.co.resumes ++ [(id, im.image)],
                                                      reserving := s1.co.reserving ++ [(id, prio)] } } 0
    | none => s.endCmd 2))

/-- Guard tags from their bytes. -/
def guardsOf (bs : List Byte) : SMap (BitVec 2) :=
  ((List.range bs.length).zip bs).foldr (fun e acc =>
    let four := (List.range 4).filterMap (fun j =>
      let t : BitVec 2 := e.2.extractLsb' (2 * j) 2
      if t = 0 then none else some (4 * e.1 + j, t))
    four ++ acc) []

/-- An MX from its saved registers and its block (10 R257; 13 R320). -/
def State.readMxBlock (s : State) (base : Nat) (u : MxUnit) (m : Mx) : Mx :=
  let o := base + mxBlockAt u
  { m with
    c := (List.range 8).map (fun n => (n, s.readAcc (o + accAt n))),
    b := m.b.map (fun e => (e.1, { e.2 with cells := memCells 0 (memRead s.mem (o + 0x40000 * e.1) e.2.extent) })),
    store := (List.range 1024).map (fun i => (i, BitVec.ofNat 512 (s.peek (o + 0x180800 + 64 * i) 64))),
    v := (List.range 32).map (fun i => (i, (List.range 128).map (fun j => BitVec.ofNat 32 (s.peek (o + 0x190800 + 512 * i + 4 * j) 4)))),
    nextM := s.mnow + 1 }

/-- The step of a deferred wait at its home slice, once that holds it no longer (11 R275); until then it keeps its place there. -/
def State.redeferAt (s : State) (c pa n : Nat) (step : State → State) : State :=
  match s.reach (coreOf c) (some (.ctx c)) false pa n with
  | (s1, true) => step (s1.dropWaits c)
  | (s1, false) => s1

/-- A deferred wait made again (13 R321 step 5): it is answered if what it waited for has come. One that finds no room completes with RETRY, as its
instruction does (07 R187; 08 R204). DEDUCED (entry 79); unsafe. -/
def State.redefer (s : State) (c : Nat) : State :=
  match s.ctx? c with
  | none => s
  | some x =>
    match x.st with
    | .waiting (.future d pa) =>
      s.redeferAt c pa 16 (fun t =>
        if (t.peek64 (localOf pa + 8)).getLsbD 0 then t.answerLdf (t.peek64 (localOf pa)) ⟨c, pa⟩
        else if t.deferRoom pa then t.defer c pa
        else (t.writeReg c (d + 1) 7).wake c)
    | .waiting (.phase d desc span token) =>
      (match desc with
       | some pa =>
         s.redeferAt c pa 64 (fun t =>
           let ph := t.peek64 (localOf pa + 24)
           if field ph 55 0 != token then t.answerGwait ph ⟨c, pa⟩
           else if t.deferRoom pa then t.defer c pa
           else (t.writeReg c d 7).wake c)
       | none =>
         let ph := ((s.span? span).map (·.phase)).getD 0
         if field ph 55 0 != token then s.answerGwait ph ⟨c, 0⟩
         else if s.co.deferred0.length < 256 then s.defer0 c
         else (s.writeReg c d 7).wake c)
    | .idle | .reply | .retry | .fetching | .remote _ | .row _ | .glean _ _ _ _ _ | .gst _ _ _ | .yielding _ | .waiting _ => s

/-- Whether a saved wait has been copied back and its deferral is still to be made again, since its home slice holds it (11 R275; 13 R321). -/
def State.undeferred (s : State) (c : Nat) (x : Ctx) : Bool :=
  !s.quiescing (clusterOf c) && !s.deferrals.any (fun q => q.ctx == c) && match x.st with
    | .waiting (.future _ _) | .waiting (.phase _ (some _) _ _) => true
    | .idle | .reply | .retry | .fetching | .remote _ | .row _ | .glean _ _ _ _ _ | .gst _ _ _ | .yielding _ | .waiting _ => false

/-- Such a wait tried again. -/
def State.redeferTurn (s : State) (c : Nat) : State :=
  match s.ctx? c with
  | some x => if s.undeferred c x then s.redefer c else s
  | none => s

/-- Scratchpad, core stores, matrix units, guard tags, tags and contexts of a saved cluster copied back (13 R321 step 4). -/
def State.restoreCluster (s : State) (sc : SavedCluster) : State :=
  let k := sc.index
  let here := s.cluster k
  let s1 := (s.moveBytes sc.base (padAddr k 0) Config.padSize).moveBytes (sc.base + 0x800000) (Config.storeBase + 4 * k * Config.storeSize) 0x100000
  let s2 := s1.setCluster k { sc.cl with
    fenced := here.fenced, counters := here.counters, tlb := here.tlb,
    guards := guardsOf (memRead s1.mem (sc.base + controlAt + 0x100) 8192),
    mx0 := s1.readMxBlock sc.base .mx0 sc.cl.mx0, mx1 := s1.readMxBlock sc.base .mx1 sc.cl.mx1 }
  let s3 := ((coresOf k).zip sc.cores).foldl (fun t e =>
    t.setCore e.1 { t.core e.1 with tags := e.2.tags, used := e.2.used, lastSlot := e.2.lastSlot, l1d := [] }) s2
  let s4 := sc.ctxs.foldl (fun t e => t.setCtx e.1 e.2) { s3 with parked := s3.parked ++ sc.parked }
  if sc.cl.frozen then s4 else s4.startTimers k

/-- Deferrals made again and held event bits given (13 R320, R321). -/
def State.rewake (s : State) (sc : SavedCluster) : State :=
  sc.events.foldl (fun t e => t.giveBits e.1 e.2) ((sc.ctxs.map (·.1)).foldl State.redefer s)

/-- The destinations of some regions' copies registered again (13 R321 step 4). -/
def State.reregister (s : State) (ids : List Nat) : State :=
  { s with engines := s.engines.map (fun e => (e.1, { e.2 with queue := e.2.queue.map (fun c =>
      if ids.contains c.region then { c with lines := c.runs s e.1 (c.range 1 6) } else c) })) }

/-- A saved image whose resume waits for nothing more (13 R321 step 3). -/
def State.readyImage (s : State) : Option SavedImage :=
  s.co.images.find? (fun im => s.co.resumes.contains (im.region, im.image) &&
    im.clusters.all (fun sc => (s.cluster sc.index).owner == .free && !(s.cluster sc.index).fenced))

/-- RESUME_COPY_BACK (13 R321 steps 3 to 6), in stage 3 (15 R344). -/
def execResumeCopyBack (s : State) : Host.Outcome State Fault Refusal :=
  match (if s.ctl.stage = 3 then s.readyImage else none) with
  | none => .next s
  | some im =>
    let s1 := im.clusters.foldl State.restoreCluster s
    let s2 := State.unreserve { s1 with co := { s1.co with images := s1.co.images.filter (fun q => q.region != im.region),
                                                           resumes := s1.co.resumes.filter (fun q => q.1 != im.region),
                                                           retest := s1.co.reserving.map (·.1) } } im.region
    let s3 := im.regions.foldl (fun t id =>
      if ((t.region? id).map (·.state)) = some .preempted then t.setRegionState id .active else t) s2
    .next (im.clusters.foldl State.rewake (s3.reregister im.regions))

end Sys2Proof.Machine
end

