-- ==== Sys2Proof/Machine/Service.lean ====
section
/-! DEFINITION. Stores to control registers as commands (13 R307, R314; 14 R341, R342; 15 R344 to R348, R356 to R358), the stages of the device
(R344), telemetry and heat (R361, R362), a lost port (R347), and errors in control state (13 R317). -/
namespace Sys2Proof.Machine

/-- An 8-byte store to a control register, made by a storer by itself, and whether it is over: a device context that it faults takes the fault (15
R346). One that is held keeps its place under the storer's name. -/
def State.storeNow (s : State) (st : Storer) (a : Nat) (v : Word) : State × Bool :=
  match ({ s with row := some (.storer st, false) } : State).regWrite st a (word (s.phys a)) v with
  | (s1, .held) => ({ s1 with row := s.row }, false)
  | (s1, .ok _) => (State.dropPlaces { s1 with row := s.row } (some (.storer st)), true)
  | (s1, .fault f) =>
    let s2 := State.dropPlaces { s1 with row := s.row } (some (.storer st))
    (match st with
     | .context c => (match s2.ctx? c with | some x => takeTrap s2 c x f 0 | none => s2)
     | .port _ => s2
     | .service => s2, true)

/-- The same, in the order of its storer's writes (14 R336): behind those that wait, and waiting itself where it is held. -/
def State.storeCommand (s : State) (st : Storer) (a : Nat) (v : Word) : State :=
  if s.posting st then s.post st (.reg a v)
  else match s.storeNow st a v with
    | (s1, true) => s1
    | (s1, false) => s1.post st (.reg a v)

/-- CLCTL of a cluster (13 R314). -/
def clctlAddr (k : Nat) : Nat := Config.mmioBase + 0x40000000 + 0x1000 * Nat.min k 256
/-- TLBINV (13 R307). -/
def tlbinvAddr : Nat := Config.mmioBase + 0x200
/-- CLCTL's store value: command, and the unit it names (13 R314). -/
def clctlWord (cmd : Nat) (u : MxUnit) : Word := word (cmd + 16 * MxUnit.toNat u)

/-- MXRESUME (13 R314). -/
def execMxresume (k : Nat) (u : MxUnit) (st : Storer) (s : State) : Host.Outcome State Fault Refusal :=
  .next (s.storeCommand st (clctlAddr k) (clctlWord 1 u))
/-- MXHALT (13 R314). -/
def execMxhalt (k : Nat) (u : MxUnit) (st : Storer) (s : State) : Host.Outcome State Fault Refusal :=
  .next (s.storeCommand st (clctlAddr k) (clctlWord 2 u))
/-- FREEZE (13 R314, R315). -/
def execFreeze (k : Nat) (st : Storer) (s : State) : Host.Outcome State Fault Refusal :=
  .next (s.storeCommand st (clctlAddr k) (clctlWord 3 .mx0))
/-- THAW (13 R314). -/
def execThaw (k : Nat) (st : Storer) (s : State) : Host.Outcome State Fault Refusal :=
  .next (s.storeCommand st (clctlAddr k) (clctlWord 4 .mx0))
/-- RELEASE (13 R314, R315). -/
def execRelease (k : Nat) (st : Storer) (s : State) : Host.Outcome State Fault Refusal :=
  .next (s.storeCommand st (clctlAddr k) (clctlWord 5 .mx0))

/-- TLBINV's store value (13 R307): kind, ASID, virtual page. -/
def tlbinvWord (kind : Nat) (asid : BitVec 16) (vpg : BitVec 40) : Word := word (kind * 2 ^ 56 + asid.toNat * 2 ^ 40 + vpg.toNat)

/-- TLBINV_PAGE (13 R307). -/
def execTlbinvPage (st : Storer) (asid : BitVec 16) (vpg : BitVec 40) (s : State) : Host.Outcome State Fault Refusal :=
  .next (s.storeCommand st tlbinvAddr (tlbinvWord 0 asid vpg))
/-- TLBINV_ASID (13 R307). -/
def execTlbinvAsid (st : Storer) (asid : BitVec 16) (s : State) : Host.Outcome State Fault Refusal :=
  .next (s.storeCommand st tlbinvAddr (tlbinvWord 1 asid 0))
/-- TLBINV_ALL (13 R307). -/
def execTlbinvAll (st : Storer) (s : State) : Host.Outcome State Fault Refusal :=
  .next (s.storeCommand st tlbinvAddr (tlbinvWord 2 0 0))

/-- DOORBELL of a slot of the queue window (14 R341). -/
def execDoorbell (st : Storer) (slot : Nat) (v : Word) (s : State) : Host.Outcome State Fault Refusal :=
  .next (s.storeCommand st (Config.mmioBase + 0x20000000 + 256 * Nat.min slot 4096 + 8) v)

/-- ACQ (15 R347). -/
def execAcq (st : Storer) (s : State) : Host.Outcome State Fault Refusal := .next (s.storeCommand st (Config.mmioBase + 8) 256)
/-- REL (15 R347). -/
def execRel (st : Storer) (s : State) : Host.Outcome State Fault Refusal := .next (s.storeCommand st (Config.mmioBase + 8) 512)
/-- STAGE (15 R344, R346). -/
def execStage (st : Storer) (v : Word) (s : State) : Host.Outcome State Fault Refusal := .next (s.storeCommand st Config.mmioBase v)
/-- FABRIC_LOG_CLR (14 R342). -/
def execFabricLogClr (st : Storer) (v : Word) (s : State) : Host.Outcome State Fault Refusal :=
  .next (s.storeCommand st (Config.mmioBase + 0x30000010) v)

/-- IDENTITY (15 R356). -/
def execIdentity (p : Port) (mlen : BitVec 16) (s : State) : Host.Outcome State Fault Refusal :=
  .next (s.boxRun p 1 mlen.toNat none (fun t => t.boxIdentity p))
/-- CERTS (15 R356). -/
def execCerts (p : Port) (mlen : BitVec 16) (s : State) : Host.Outcome State Fault Refusal :=
  .next (s.boxRun p 2 mlen.toNat none (fun t => t.boxCerts p mlen.toNat))
/-- ATTEST (15 R357). -/
def execAttest (p : Port) (mlen : BitVec 16) (s : State) : Host.Outcome State Fault Refusal :=
  .next (s.boxRun p 3 mlen.toNat none (fun t => t.boxAttest p))
/-- FWSTAGE (15 R356). -/
def execFwstage (p : BoxStore) (mlen : BitVec 16) (s : State) : Host.Outcome State Fault Refusal :=
  .next (s.boxRun p.box 4 mlen.toNat (some p.who) (fun t => t.boxFwstage p mlen.toNat))
/-- FWCOMMIT (15 R358), with the outcome of its verification. DESIGN CHOICE (entry 21); safe. -/
def execFwcommit (p : BoxStore) (mlen : BitVec 16) (good : ImageCheck) (s : State) : Host.Outcome State Fault Refusal :=
  .next (s.boxRun p.box 5 mlen.toNat (some p.who) (fun t => t.boxFwcommit p good))

/-- REGISTER_WRITE (15 R346): an aligned 8-byte store to a register of the control page; any other shape is no access that the block
accepts (13 R303). -/
def execRegisterWrite (st : Storer) (addr : Nat) (v : Word) (s : State) : Host.Outcome State Fault Refusal :=
  .next (if addr % 8 = 0 && placeLocal addr == .mmio then s.storeCommand st addr v else s)

/-- The control block after a reset (15 R344, R346): what is fused stays, the boot count advances, and a committed image runs (R358), which the ROM
has not checked yet. -/
def Control.restart (t : Control) : Control :=
  { Control.reset with stepping := t.stepping, featOffer := t.featOffer, dieGroups := t.dieGroups, boots := t.boots + 1, rollback := t.rollback,
                       running := match t.committed with | some i => some i | none => t.running,
                       romOk := if t.committed.isSome then none else t.romOk }

/-- The part after a reset, with what memory holds and the marks of its errors. -/
def State.restart (s : State) (mem : List Host.Cell) (bad : List Nat) : State :=
  { State.reset with now := s.now, mem := mem, bad := bad, ctl := s.ctl.restart, freeUse := s.freeUse, turns := s.turns }

/-- POWER_GOOD (15 R344): memory comes up as memory that nothing has written (entry 1). -/
def execPowerGood (s : State) : Host.Outcome State Fault Refusal := .next (s.restart [] [])

/-- CXL_HOT_RESET (15 R344): memory keeps its contents, which the spec does not say: DESIGN CHOICE (entry 34). Unsafe. -/
def execCxlHotReset (s : State) : Host.Outcome State Fault Refusal := .next (s.restart s.mem s.bad)

/-- ROM_CHECK_END (15 R344): stage 0 ends, and the outcome stands for as long as the same firmware runs; from stage 1, where it passed, the device
goes on to stage 2. DESIGN CHOICE (entry 21); safe. -/
def execRomCheckEnd (good : Bool) (s : State) : Host.Outcome State Fault Refusal :=
  .next (if s.ctl.stage = 0 then
      let ok := s.ctl.romOk.getD good
      { s with ctl := { s.ctl with stage := 1, fwerr := !ok, romOk := some ok } }
    else if s.ctl.stage = 1 && !s.ctl.fwerr then { s with ctl := { s.ctl with stage := 2 } }
    else s)

/-- A cluster fenced. -/
def State.fence (s : State) (k : Nat) : State := s.setCluster k { s.cluster k with fenced := true }

/-- BRING_UP_END (15 R344). DESIGN CHOICE (entry 21); safe. -/
def execBringUpEnd (failed : List Nat) (s : State) : Host.Outcome State Fault Refusal :=
  .next (if s.ctl.stage = 2 && !s.ctl.trained then
      let s1 := (failed.filter (fun k => k < Config.clusters)).foldl State.fence s
      { s1 with ctl := { s1.ctl with trained := true } }
    else s)

/-- LINK_DOWN (15 R347). -/
def execLinkDown (p : Port) (s : State) : Host.Outcome State Fault Refusal :=
  .next (if s.owns (.port p) then { s with ctl := { s.ctl with owner := 0 } } else s)

/-- POWERCAP in mW as it acts (15 R361). -/
def Control.capMw (t : Control) : Nat := 1000 * Nat.min 3400 (Nat.max 1000 t.powercap.toNat)

/-- Degrees Celsius in the units of telemetry, 1/16 °C (15 R361). -/
def celsius (n : Nat) : Nat := 16 * n

/-- THROTTLE from LEVEL and its two causes (15 R361). -/
def throttleOf (level : Nat) (power thermal : Bool) : BitVec 6 :=
  BitVec.ofNat 6 (level + (if power then 16 else 0) + (if thermal then 32 else 0))

/-- The throttle after a refresh (15 R361, R362): LEVEL rises by 1, to 8 at most, for power above the cap or a junction above 105 °C, and
falls by 1 after 10 ms below 95 % of the cap. A cause's bit stays until LEVEL is 0 (entry 36). Power above the cap at LEVEL 8, and a junction above
105 °C, are thermal events. -/
def Control.throttled (t : Control) (m : Telemetry) : Control :=
  let hot := m.junction.any (fun j => celsius 105 < j)
  let above := t.capMw < m.power
  let level := t.throttle.toNat % 16
  let cool := if m.power * 100 < t.capMw * 95 then t.coolFor + 1 else 0
  let raised := throttleOf (Nat.min 8 (level + 1)) (t.throttle.getLsbD 4 || above) (t.throttle.getLsbD 5 || hot)
  if above || hot then { t with throttle := raised, coolFor := cool }.raise (if hot || (above && level = 8) then 8 else 0)
  else if 10 ≤ cool then
    let down := level - 1
    { t with throttle := throttleOf down (down != 0 && t.throttle.getLsbD 4) (down != 0 && t.throttle.getLsbD 5), coolFor := 0 }
  else { t with coolFor := cool }

/-- Whether a sample is a critical trip: a junction above 115 °C, or HBM above 95 °C (15 R362). -/
def criticalSample (m : Telemetry) : Bool := m.junction.any (fun j => celsius 115 < j) || m.stackTemp.any (fun j => celsius 95 < j)

/-- A number of region commands complete with one result (15 R351). -/
def State.cmdsDone (s : State) (result : Nat) : Nat → State
  | 0 => s
  | n + 1 => (s.cmdDone result).cmdsDone result n

/-- What a cluster that drained held of its region's use is given back (01 R22). -/
def State.endDrain (s : State) (k : Nat) : State :=
  match (s.cluster k).owner with
  | .draining n _ => s.use (((s.span? n).map (·.region)).getD 0) (fun r => { r with usecl := r.usecl - 1 })
  | .free => s
  | .crew _ _ => s

/-- The compute dies power down (15 R362): cores, clusters, engines, contexts, the queue window and the counters lose their state, and so do
scratchpads and core stores. HBM keeps its contents (entry 34). -/
def State.computeOff (s : State) : State :=
  { s with cycle := List.replicate 4 0, mem := memBelow s.mem Config.padBase, bad := s.bad.filter (fun g => 8 * g < Config.padBase), ctxs := [],
           cores := [], clusters := [], engines := [], parked := [], waits := [], walks := [], deferrals := [], spilled := [], gldms := [],
           co := { s.co with reserving := [], retest := [], queries := [], deferred0 := [], preempts := [], resumes := [], launchRetry := [],
                             chosen := [], handling := none, spans := s.co.spans.filter (fun p => !p.ended) },
           ctl := { s.ctl with counters := [], trained := false, stage := 1 },
           io := { s.io with fetchBuf := List.replicate 4 [], windows := [], rings := [], promises := [], bells := [], posts := [] } }

/-- A critical trip (15 R353, R362): every ACTIVE region is halted, region commands complete with NOTREADY, the compute dies power down, and the
device is in stage 1. DEDUCED (entry 53); unsafe. -/
def State.trip (s : State) : State :=
  let n := s.ctl.regcmd.length + s.co.preempts.length
  let active := (s.co.regions.map (·.2)).filter (fun r => r.state == .active)
  let s1 := active.foldl (fun t r => t.haltRegions r.id none) { s with ctl := { s.ctl with regcmd := [] } }
  let s2 := ((s1.clusters.map (·.1)).foldl State.endDrain s1).computeOff.flushWrites
  let s3 := (s2.cmdsDone 4 n).logDevice 5 5 0 0
  { s3 with ctl := s3.ctl.raise 8 }

/-- CRITICAL_TRIP (15 R362): where the latest sample is one, from stage 2 on. -/
def execCriticalTrip (s : State) : Host.Outcome State Fault Refusal :=
  .next (if 2 ≤ s.ctl.stage && criticalSample s.ctl.telemetry then s.trip else s)

/-- TELEMETRY_REFRESH (15 R361, R362), from stage 1 on (R344): a sample that is a critical trip makes it. -/
def execTelemetryRefresh (m : Telemetry) (s : State) : Host.Outcome State Fault Refusal :=
  if s.ctl.stage = 0 then .next s else execCriticalTrip { s with ctl := { s.ctl.throttled m with telemetry := m } }

/-- The notice of an error in a cluster's control state (13 R313, R317; entry 37). -/
def controlNotice (k : Nat) : FaultRecord :=
  let f := flt .eccUncorr 0 0xFF
  noticeRecord (noticeBody k .mx0 0 0 0 0 false f) f

/-- CONTROL_STATE_ECC (13 R317; 15 R353): the cluster is fenced and its crew frozen, with a notice. -/
def execControlStateEcc (k : Nat) (s : State) : Host.Outcome State Fault Refusal :=
  if Config.clusters ≤ k then .next s
  else
    let s1 := (s.fence k).logDevice 6 5 (word (s.phys (clctlAddr k))) ((s.crewRegion? k).getD 0)
    .next (if (s.crew? k).isSome then (s1.freezeCrew k).postRecord k (controlNotice k) none else s1)

end Sys2Proof.Machine
end

