-- ==== Sys2Proof/Machine/System.lean ====
section
/-! DEFINITION. Events, system registers, traps (08 R205 to R211). -/
namespace Sys2Proof.Machine

/-- EVSEND (08 R205). -/
def execEvsend (a b : Reg) (s : State) : Host.Outcome State Fault Refusal :=
  runSwarm (.evsend a b) [] false [a, b] (fun c x s =>
    let t := s.reg x a
    if field t 63 16 != 0 then .trap s (flt .bounds t)
    else s.releaseThen c (some .pkg) (fun s1 => .busy (s1.sendBits x.region t.toNat (s.reg x b)) .reply)) s

/-- WAIT (08 R206). -/
def execWait (d a : Reg) (s : State) : Host.Outcome State Fault Refusal :=
  runSwarm (.wait d a) [] false [a] (fun c x s =>
    let mask := s.reg x a
    if mask = 0 then .ok (s.setReg x d 0)
    else if x.events &&& mask = 0 then .busy s (.waiting (.event d mask))
    else .ok (((s.setCtx c { x with events := x.events &&& ~~~mask }).setReg x d (x.events &&& mask)).acquire (coreOf c) .pkg)) s

/-- YIELD (08 R207). -/
def execYield (a : Reg) (s : State) : Host.Outcome State Fault Refusal :=
  runSwarm (.yield a) [] false [a] (fun _ x s => .busy s (.yielding (s.now + 8 + Nat.min (s.reg x a).toNat 65535))) s

/-- YIELD_END (08 R207). -/
def execYieldEnd (c : Nat) (s : State) : Host.Outcome State Fault Refusal :=
  match s.ctx? c with
  | some x =>
    match x.st with
    | .yielding till => .next (if till ≤ s.now then s.modCtx c (fun y => { y with st := .idle }) else s)
    | _ => .next s
  | none => .next s

/-- The value RDSR returns (08 R208). -/
def State.sysRead (s : State) (c : Nat) (x : Ctx) (i : SysReg) : Word :=
  match i with
  | .fcsr => x.fcsr
  | .events => x.events
  | .wp => x.wp
  | .ctxid => word c
  | .core => word (coreOf c)
  | .cluster => word (clusterOf c)
  | .crew => word (((s.crew? (clusterOf c)).map (·.1)).getD 0 % 2 ^ 24 * 256 + s.rankOf c)
  | .rank => word (s.rankOf c)
  | .spansize => word (s.spansizeOf c)
  | .region => word (x.region % 2 ^ 32)
  | .feat => s.feat (dieOfCluster (clusterOf c))
  | .cycle => s.cycleOf (dieOfCluster (clusterOf c))
  | .stepping => s.ctl.stepping.setWidth 64
  | .trappc => x.trappc
  | .trapinfo => x.trapinfo
  | .trapaddr => x.trapaddr
  | .tvbase => x.tvbase
  | .asid => x.asid.setWidth 64
  | .dtb => x.dtb
  | .gtb => x.gtb

/-- RDSR (08 R208). -/
def execRdsr (d : Reg) (i : SysReg) (s : State) : Host.Outcome State Fault Refusal :=
  runSwarm (.rdsr d i) [] i.supervisor [] (fun c x s => .ok (s.setReg x d (s.sysRead c x i))) s

/-- The context after WRSR (08 R208); a read-only number never reaches it. -/
def sysWrite (x : Ctx) (i : SysReg) (v : Word) : Ctx :=
  match i with
  | .fcsr => { x with fcsr := fcsrWrite v }
  | .trappc => { x with trappc := v }
  | .trapinfo => { x with trapinfo := v }
  | .trapaddr => { x with trapaddr := v }
  | .tvbase => { x with tvbase := v &&& ~~~3 }
  | .asid => { x with asid := v.setWidth 16 }
  | .dtb => { x with dtb := v }
  | .gtb => { x with gtb := v }
  | .events | .wp | .ctxid | .core | .cluster | .crew | .rank | .spansize | .region | .feat | .cycle | .stepping => x

/-- WRSR (08 R208). -/
def execWrsr (a : Reg) (i : SysReg) (s : State) : Host.Outcome State Fault Refusal :=
  runSwarm (.wrsr a i) [] i.supervisor [a] (fun c x s => .ok (s.setCtx c (sysWrite x i (s.reg x a)))) s

/-- TRAP (08 R209). -/
def execTrap (n : BitVec 5) (s : State) : Host.Outcome State Fault Refusal :=
  runSwarm (.trap n) [] false [] (fun _ _ s => .trap s (flt .trapInsn 0)) s

/-- ERET (08 R210). -/
def execEret (s : State) : Host.Outcome State Fault Refusal :=
  runSwarm .eret [] true [] (fun _ x s => .jump s (eretTarget x)) s

/-- NOP (08 R211). -/
def execNop (s : State) : Host.Outcome State Fault Refusal :=
  runSwarm .nop [] false [] (fun _ _ s => .ok s) s

end Sys2Proof.Machine
end

