-- ==== Sys2Proof/Machine/Dispatch.lean ====
section
/-! DEFINITION. One arm per instruction, each the direct call of its meaning. -/
namespace Sys2Proof.Machine

def exec (i : Instr) (s : State) : Host.Outcome State Fault Refusal :=
  match i with
  | .add d a b => Sys2Proof.Machine.execAdd d a b s
  | .sub d a b => Sys2Proof.Machine.execSub d a b s
  | .mul d a b => Sys2Proof.Machine.execMul d a b s
  | .mulh d a b => Sys2Proof.Machine.execMulh d a b s
  | .mulhu d a b => Sys2Proof.Machine.execMulhu d a b s
  | .div d a b => Sys2Proof.Machine.execDiv d a b s
  | .divu d a b => Sys2Proof.Machine.execDivu d a b s
  | .rem d a b => Sys2Proof.Machine.execRem d a b s
  | .remu d a b => Sys2Proof.Machine.execRemu d a b s
  | .and d a b => Sys2Proof.Machine.execAnd d a b s
  | .or d a b => Sys2Proof.Machine.execOr d a b s
  | .xor d a b => Sys2Proof.Machine.execXor d a b s
  | .shl d a b => Sys2Proof.Machine.execShl d a b s
  | .shr d a b => Sys2Proof.Machine.execShr d a b s
  | .sra d a b => Sys2Proof.Machine.execSra d a b s
  | .rot d a b => Sys2Proof.Machine.execRot d a b s
  | .clz d a => Sys2Proof.Machine.execClz d a s
  | .ctz d a => Sys2Proof.Machine.execCtz d a s
  | .popc d a => Sys2Proof.Machine.execPopc d a s
  | .min d a b => Sys2Proof.Machine.execMin d a b s
  | .max d a b => Sys2Proof.Machine.execMax d a b s
  | .minu d a b => Sys2Proof.Machine.execMinu d a b s
  | .maxu d a b => Sys2Proof.Machine.execMaxu d a b s
  | .slt d a b => Sys2Proof.Machine.execSlt d a b s
  | .sltu d a b => Sys2Proof.Machine.execSltu d a b s
  | .sel d a b c => Sys2Proof.Machine.execSel d a b c s
  | .hash d a b => Sys2Proof.Machine.execHash d a b s
  | .crng d a b => Sys2Proof.Machine.execCrng d a b s
  | .loc d a b => Sys2Proof.Machine.execLoc d a b s
  | .peer d a b => Sys2Proof.Machine.execPeer d a b s
  | .peerWrap d a b => Sys2Proof.Machine.execPeerWrap d a b s
  | .peerLoc d a => Sys2Proof.Machine.execPeerLoc d a s
  | .jr d a => Sys2Proof.Machine.execJr d a s
  | .swapws d a => Sys2Proof.Machine.execSwapws d a s
  | .addi d a kk => Sys2Proof.Machine.execAddi d a kk s
  | .andi d a kk => Sys2Proof.Machine.execAndi d a kk s
  | .ori d a kk => Sys2Proof.Machine.execOri d a kk s
  | .xori d a kk => Sys2Proof.Machine.execXori d a kk s
  | .slti d a kk => Sys2Proof.Machine.execSlti d a kk s
  | .ldhi d kk => Sys2Proof.Machine.execLdhi d kk s
  | .addpc d kk => Sys2Proof.Machine.execAddpc d kk s
  | .shli d a n => Sys2Proof.Machine.execShli d a n s
  | .shri d a n => Sys2Proof.Machine.execShri d a n s
  | .srai d a n => Sys2Proof.Machine.execSrai d a n s
  | .roti d a n => Sys2Proof.Machine.execRoti d a n s
  | .bfx d a w l => Sys2Proof.Machine.execBfx d a w l s
  | .bfi d a w l => Sys2Proof.Machine.execBfi d a w l s
  | .beq a b o => Sys2Proof.Machine.execBeq a b o s
  | .bne a b o => Sys2Proof.Machine.execBne a b o s
  | .blt a b o => Sys2Proof.Machine.execBlt a b o s
  | .bge a b o => Sys2Proof.Machine.execBge a b o s
  | .bltu a b o => Sys2Proof.Machine.execBltu a b o s
  | .bgeu a b o => Sys2Proof.Machine.execBgeu a b o s
  | .jmp o => Sys2Proof.Machine.execJmp o s
  | .call o => Sys2Proof.Machine.execCall o s
  | .lb d a kk => Sys2Proof.Machine.execLb d a kk s
  | .lbu d a kk => Sys2Proof.Machine.execLbu d a kk s
  | .lh d a kk => Sys2Proof.Machine.execLh d a kk s
  | .lhu d a kk => Sys2Proof.Machine.execLhu d a kk s
  | .lw d a kk => Sys2Proof.Machine.execLw d a kk s
  | .lwu d a kk => Sys2Proof.Machine.execLwu d a kk s
  | .ld d a kk => Sys2Proof.Machine.execLd d a kk s
  | .lq d a kk => Sys2Proof.Machine.execLq d a kk s
  | .sb d a kk => Sys2Proof.Machine.execSb d a kk s
  | .sh d a kk => Sys2Proof.Machine.execSh d a kk s
  | .sw d a kk => Sys2Proof.Machine.execSw d a kk s
  | .sd d a kk => Sys2Proof.Machine.execSd d a kk s
  | .sq d a kk => Sys2Proof.Machine.execSq d a kk s
  | .pfl h a kk => Sys2Proof.Machine.execPfl h a kk s
  | .lbit d a b x w => Sys2Proof.Machine.execLbit d a b x w s
  | .sbit d a b w => Sys2Proof.Machine.execSbit d a b w s
  | .memordLb d a zz => Sys2Proof.Machine.execMemordLb d a zz s
  | .memordLbu d a zz => Sys2Proof.Machine.execMemordLbu d a zz s
  | .memordLh d a zz => Sys2Proof.Machine.execMemordLh d a zz s
  | .memordLhu d a zz => Sys2Proof.Machine.execMemordLhu d a zz s
  | .memordLw d a zz => Sys2Proof.Machine.execMemordLw d a zz s
  | .memordLwu d a zz => Sys2Proof.Machine.execMemordLwu d a zz s
  | .memordLd d a zz => Sys2Proof.Machine.execMemordLd d a zz s
  | .memordLq d a zz => Sys2Proof.Machine.execMemordLq d a zz s
  | .memordSb d a zz => Sys2Proof.Machine.execMemordSb d a zz s
  | .memordSh d a zz => Sys2Proof.Machine.execMemordSh d a zz s
  | .memordSw d a zz => Sys2Proof.Machine.execMemordSw d a zz s
  | .memordSd d a zz => Sys2Proof.Machine.execMemordSd d a zz s
  | .memordSq d a zz => Sys2Proof.Machine.execMemordSq d a zz s
  | .amoAdd d a b z zz p => Sys2Proof.Machine.execAmoAdd d a b z zz p s
  | .amoAnd d a b z zz p => Sys2Proof.Machine.execAmoAnd d a b z zz p s
  | .amoOr d a b z zz p => Sys2Proof.Machine.execAmoOr d a b z zz p s
  | .amoXor d a b z zz p => Sys2Proof.Machine.execAmoXor d a b z zz p s
  | .amoMin d a b z zz p => Sys2Proof.Machine.execAmoMin d a b z zz p s
  | .amoMax d a b z zz p => Sys2Proof.Machine.execAmoMax d a b z zz p s
  | .amoMinu d a b z zz p => Sys2Proof.Machine.execAmoMinu d a b z zz p s
  | .amoMaxu d a b z zz p => Sys2Proof.Machine.execAmoMaxu d a b z zz p s
  | .amoSwp d a b z zz p => Sys2Proof.Machine.execAmoSwp d a b z zz p s
  | .amoFadd d a b z zz p => Sys2Proof.Machine.execAmoFadd d a b z zz p s
  | .amocas d a b z zz p => Sys2Proof.Machine.execAmocas d a b z zz p s
  | .fence zz p => Sys2Proof.Machine.execFence zz p s
  | .icsync zz => Sys2Proof.Machine.execIcsync zz s
  | .fadd d a b r p => Sys2Proof.Machine.execFadd d a b r p s
  | .fsub d a b r p => Sys2Proof.Machine.execFsub d a b r p s
  | .fmul d a b r p => Sys2Proof.Machine.execFmul d a b r p s
  | .fma d a b r p => Sys2Proof.Machine.execFma d a b r p s
  | .fmin d a b p => Sys2Proof.Machine.execFmin d a b p s
  | .fmax d a b p => Sys2Proof.Machine.execFmax d a b p s
  | .fcmp d a b c p => Sys2Proof.Machine.execFcmp d a b c p s
  | .fcvt d a c r => Sys2Proof.Machine.execFcvt d a c r s
  | .fsgn d a b o p => Sys2Proof.Machine.execFsgn d a b o p s
  | .fdiv d a b r p => Sys2Proof.Machine.execFdiv d a b r p s
  | .fsqrt d a r p => Sys2Proof.Machine.execFsqrt d a r p s
  | .frcp d a r p => Sys2Proof.Machine.execFrcp d a r p s
  | .frsq d a r p => Sys2Proof.Machine.execFrsq d a r p s
  | .fexp2 d a r p => Sys2Proof.Machine.execFexp2 d a r p s
  | .flog2 d a r p => Sys2Proof.Machine.execFlog2 d a r p s
  | .padd d a b u zz k => Sys2Proof.Machine.execPadd d a b u zz k s
  | .psub d a b u zz k => Sys2Proof.Machine.execPsub d a b u zz k s
  | .pmul d a b u zz k => Sys2Proof.Machine.execPmul d a b u zz k s
  | .pfma d a b u zz k => Sys2Proof.Machine.execPfma d a b u zz k s
  | .pmin d a b u k => Sys2Proof.Machine.execPmin d a b u k s
  | .pmax d a b u k => Sys2Proof.Machine.execPmax d a b u k s
  | .pdot d a b u k => Sys2Proof.Machine.execPdot d a b u k s
  | .pcvt d a b m => Sys2Proof.Machine.execPcvt d a b m s
  | .pshuf d a b => Sys2Proof.Machine.execPshuf d a b s
  | .pcmp d a b c k => Sys2Proof.Machine.execPcmp d a b c k s
  | .lacz a => Sys2Proof.Machine.execLacz a s
  | .laca a b k => Sys2Proof.Machine.execLaca a b k s
  | .lacr d a => Sys2Proof.Machine.execLacr d a s
  | .topen d a b => Sys2Proof.Machine.execTopen d a b s
  | .trow d a b c => Sys2Proof.Machine.execTrow d a b c s
  | .telm d a b c => Sys2Proof.Machine.execTelm d a b c s
  | .tfill d a b => Sys2Proof.Machine.execTfill d a b s
  | .seal d a b => Sys2Proof.Machine.execSeal d a b s
  | .tfree a => Sys2Proof.Machine.execTfree a s
  | .thdr d a n => Sys2Proof.Machine.execThdr d a n s
  | .xcp d a b => Sys2Proof.Machine.execXcp d a b s
  | .wdq d a b => Sys2Proof.Machine.execWdq d a b s
  | .ctwait d a => Sys2Proof.Machine.execCtwait d a s
  | .ctany d a => Sys2Proof.Machine.execCtany d a s
  | .ctff d a => Sys2Proof.Machine.execCtff d a s
  | .ctrd d a n => Sys2Proof.Machine.execCtrd d a n s
  | .enq d a b e => Sys2Proof.Machine.execEnq d a b e s
  | .deq d a b e => Sys2Proof.Machine.execDeq d a b e s
  | .qinfo d a => Sys2Proof.Machine.execQinfo d a s
  | .ldf d a => Sys2Proof.Machine.execLdf d a s
  | .ldfNw d a => Sys2Proof.Machine.execLdfNw d a s
  | .stf d a b => Sys2Proof.Machine.execStf d a b s
  | .fclr d a => Sys2Proof.Machine.execFclr d a s
  | .spawn d a => Sys2Proof.Machine.execSpawn d a s
  | .spawnPeer d a b => Sys2Proof.Machine.execSpawnPeer d a b s
  | .susp d a => Sys2Proof.Machine.execSusp d a s
  | .suspRequeue d => Sys2Proof.Machine.execSuspRequeue d s
  | .endTask => Sys2Proof.Machine.execEndTask s
  | .gld d a m => Sys2Proof.Machine.execGld d a m s
  | .gldm d a b m => Sys2Proof.Machine.execGldm d a b m s
  | .gst d a b w => Sys2Proof.Machine.execGst d a b w s
  | .garr d a => Sys2Proof.Machine.execGarr d a s
  | .gwait d a b => Sys2Proof.Machine.execGwait d a b s
  | .evsend a b => Sys2Proof.Machine.execEvsend a b s
  | .wait d a => Sys2Proof.Machine.execWait d a s
  | .yield a => Sys2Proof.Machine.execYield a s
  | .rdsr d kk => Sys2Proof.Machine.execRdsr d kk s
  | .wrsr a kk => Sys2Proof.Machine.execWrsr a kk s
  | .trap n => Sys2Proof.Machine.execTrap n s
  | .eret => Sys2Proof.Machine.execEret s
  | .nop => Sys2Proof.Machine.execNop s
  | .mma c h t => Sys2Proof.Machine.execMma c h t s
  | .mmaz c h t => Sys2Proof.Machine.execMmaz c h t s
  | .wload b h => Sys2Proof.Machine.execWload b h s
  | .wdrop b => Sys2Proof.Machine.execWdrop b s
  | .czero c e rows cols => Sys2Proof.Machine.execCzero c e rows cols s
  | .cload c h => Sys2Proof.Machine.execCload c h s
  | .cstore c sa disp e ly sl sf => Sys2Proof.Machine.execCstore c sa disp e ly sl sf s
  | .crow v c sb => Sys2Proof.Machine.execCrow v c sb s
  | .cput c v sb => Sys2Proof.Machine.execCput c v sb s
  | .vadd v a b k p => Sys2Proof.Machine.execVadd v a b k p s
  | .vsub v a b k p => Sys2Proof.Machine.execVsub v a b k p s
  | .vmul v a b k p => Sys2Proof.Machine.execVmul v a b k p s
  | .vfma v a b c p => Sys2Proof.Machine.execVfma v a b c p s
  | .vmax v a b k p => Sys2Proof.Machine.execVmax v a b k p s
  | .vmin v a b k p => Sys2Proof.Machine.execVmin v a b k p s
  | .vabs v a k p => Sys2Proof.Machine.execVabs v a k p s
  | .vcmp q a b cc k p => Sys2Proof.Machine.execVcmp q a b cc k p s
  | .vsel v a b q p => Sys2Proof.Machine.execVsel v a b q p s
  | .vcvt v a f p => Sys2Proof.Machine.execVcvt v a f p s
  | .vreds zz a k p => Sys2Proof.Machine.execVreds zz a k p s
  | .vredm zz a f p => Sys2Proof.Machine.execVredm zz a f p s
  | .vbcast v sa p => Sys2Proof.Machine.execVbcast v sa p s
  | .vld v sa disp f p => Sys2Proof.Machine.execVld v sa disp f p s
  | .vst v sa disp f p => Sys2Proof.Machine.execVst v sa disp f p s
  | .btopk zz c sb disp => Sys2Proof.Machine.execBtopk zz c sb disp s
  | .xexp2 v a p => Sys2Proof.Machine.execXexp2 v a p s
  | .xlog2 v a p => Sys2Proof.Machine.execXlog2 v a p s
  | .xrcp v a p => Sys2Proof.Machine.execXrcp v a p s
  | .xrsq v a p => Sys2Proof.Machine.execXrsq v a p s
  | .xtanh v a p => Sys2Proof.Machine.execXtanh v a p s
  | .xsig v a p => Sys2Proof.Machine.execXsig v a p s
  | .take h => Sys2Proof.Machine.execTake h s
  | .give h => Sys2Proof.Machine.execGive h s
  | .hrel h => Sys2Proof.Machine.execHrel h s
  | .sadd zz a b => Sys2Proof.Machine.execSadd zz a b s
  | .ssub zz a b => Sys2Proof.Machine.execSsub zz a b s
  | .sand zz a b => Sys2Proof.Machine.execSand zz a b s
  | .sshl zz a b => Sys2Proof.Machine.execSshl zz a b s
  | .saddi zz a imm => Sys2Proof.Machine.execSaddi zz a imm s
  | .sldi zz imm => Sys2Proof.Machine.execSldi zz imm s
  | .sld zz a disp => Sys2Proof.Machine.execSld zz a disp s
  | .sst zz a disp => Sys2Proof.Machine.execSst zz a disp s
  | .br line bun => Sys2Proof.Machine.execBr line bun s
  | .brc zz z line bun => Sys2Proof.Machine.execBrc zz z line bun s
  | .loop zz line bun => Sys2Proof.Machine.execLoop zz line bun s
  | .drain => Sys2Proof.Machine.execDrain s
  | .signal zz bit => Sys2Proof.Machine.execSignal zz bit s
  | .halt => Sys2Proof.Machine.execHalt s
  | .snop => Sys2Proof.Machine.execSnop s
  | .hdrf zz t f => Sys2Proof.Machine.execHdrf zz t f s
  | .pendingWriteLand k u => Sys2Proof.Machine.execPendingWriteLand k u s
  | .mOpCompletion k u => Sys2Proof.Machine.execMOpCompletion k u s
  | .memoryReply c r => Sys2Proof.Machine.execMemoryReply c r s
  | .storePathPerform core n => Sys2Proof.Machine.execStorePathPerform core n s
  | .sfuResult core => Sys2Proof.Machine.execSfuResult core s
  | .yieldEnd c => Sys2Proof.Machine.execYieldEnd c s
  | .timerExpiry k hdr => Sys2Proof.Machine.execTimerExpiry k hdr s
  | .servePendingRequest k u => Sys2Proof.Machine.execServePendingRequest k u s
  | .bind k => Sys2Proof.Machine.execBind k s
  | .handlerBind k outside => Sys2Proof.Machine.execHandlerBind k outside s
  | .faultQueueRetry who => Sys2Proof.Machine.execFaultQueueRetry who s
  | .crewRetirement k => Sys2Proof.Machine.execCrewRetirement k s
  | .clusterDrainEnd k => Sys2Proof.Machine.execClusterDrainEnd k s
  | .launchSelection outside => Sys2Proof.Machine.execLaunchSelection outside s
  | .copyQuantum e outside => Sys2Proof.Machine.execCopyQuantum e outside s
  | .gldmResult n outside => Sys2Proof.Machine.execGldmResult n outside s
  | .fetchFill core line => Sys2Proof.Machine.execFetchFill core line s
  | .illegalWord w => Sys2Proof.Machine.execIllegalWord w s
  | .descriptorRefetch pa => Sys2Proof.Machine.execDescriptorRefetch pa s
  | .registerWrite st addr v => Sys2Proof.Machine.execRegisterWrite st addr v s
  | .romCheckEnd good => Sys2Proof.Machine.execRomCheckEnd good s
  | .bringUpEnd failed => Sys2Proof.Machine.execBringUpEnd failed s
  | .telemetryRefresh t => Sys2Proof.Machine.execTelemetryRefresh t s
  | .dxlFlitReceive q => Sys2Proof.Machine.execDxlFlitReceive q s
  | .cxlMemRead p addr => Sys2Proof.Machine.execCxlMemRead p addr s
  | .cxlMemWrite p addr data mask => Sys2Proof.Machine.execCxlMemWrite p addr data mask s
  | .bar2Read p addr len => Sys2Proof.Machine.execBar2Read p addr len s
  | .bar2Write p addr data => Sys2Proof.Machine.execBar2Write p addr data s
  | .postedWriteAck core n r => Sys2Proof.Machine.execPostedWriteAck core n r s
  | .deviceLost dev => Sys2Proof.Machine.execDeviceLost dev s
  | .backInvalidateAnswer line => Sys2Proof.Machine.execBackInvalidateAnswer line s
  | .cxlCacheSnoop line => Sys2Proof.Machine.execCxlCacheSnoop line s
  | .wdqGrant => Sys2Proof.Machine.execWdqGrant s
  | .preemptionEvent => Sys2Proof.Machine.execPreemptionEvent s
  | .copyOut => Sys2Proof.Machine.execCopyOut s
  | .resumeCopyBack => Sys2Proof.Machine.execResumeCopyBack s
  | .activate => Sys2Proof.Machine.execActivate s
  | .preempt => Sys2Proof.Machine.execPreempt s
  | .resume => Sys2Proof.Machine.execResume s
  | .haltCommand => Sys2Proof.Machine.execHaltCommand s
  | .deactivate => Sys2Proof.Machine.execDeactivate s
  | .mxresume k u st => Sys2Proof.Machine.execMxresume k u st s
  | .mxhalt k u st => Sys2Proof.Machine.execMxhalt k u st s
  | .freeze k st => Sys2Proof.Machine.execFreeze k st s
  | .thaw k st => Sys2Proof.Machine.execThaw k st s
  | .release k st => Sys2Proof.Machine.execRelease k st s
  | .tlbinvPage st asid vpg => Sys2Proof.Machine.execTlbinvPage st asid vpg s
  | .tlbinvAsid st asid => Sys2Proof.Machine.execTlbinvAsid st asid s
  | .tlbinvAll st => Sys2Proof.Machine.execTlbinvAll st s
  | .doorbell st slot v => Sys2Proof.Machine.execDoorbell st slot v s
  | .acq st => Sys2Proof.Machine.execAcq st s
  | .rel st => Sys2Proof.Machine.execRel st s
  | .stage st v => Sys2Proof.Machine.execStage st v s
  | .fabricLogClr st v => Sys2Proof.Machine.execFabricLogClr st v s
  | .identity p mlen => Sys2Proof.Machine.execIdentity p mlen s
  | .certs p mlen => Sys2Proof.Machine.execCerts p mlen s
  | .attest p mlen => Sys2Proof.Machine.execAttest p mlen s
  | .fwstage p mlen => Sys2Proof.Machine.execFwstage p mlen s
  | .fwcommit p mlen good => Sys2Proof.Machine.execFwcommit p mlen good s
  | .powerGood => Sys2Proof.Machine.execPowerGood s
  | .cxlHotReset => Sys2Proof.Machine.execCxlHotReset s
  | .linkDown p => Sys2Proof.Machine.execLinkDown p s
  | .criticalTrip => Sys2Proof.Machine.execCriticalTrip s
  | .controlStateEcc k => Sys2Proof.Machine.execControlStateEcc k s
  | .remoteAccess => Sys2Proof.Machine.execRemoteAccess s
  | .workRequestPost st qp v => Sys2Proof.Machine.execWorkRequestPost st qp v s
  | .rdmaWrite qp region va data => Sys2Proof.Machine.execRdmaWrite qp region va data s
  | .rdmaWriteWithImmediate qp region va data imm => Sys2Proof.Machine.execRdmaWriteWithImmediate qp region va data imm s
  | .rdmaRead qp region va len => Sys2Proof.Machine.execRdmaRead qp region va len s
  | .send qp region va data => Sys2Proof.Machine.execSend qp region va data s
  | .completionEntry qp region va entry => Sys2Proof.Machine.execCompletionEntry qp region va entry s
  | .fetchFault => Sys2Proof.Machine.execFetchFault s
  | .illegalBundle => Sys2Proof.Machine.execIllegalBundle s

end Sys2Proof.Machine
end

