-- ==== Sys2Proof/Machine/Turns.lean ====
section
/-! DEFINITION. What a step does for an entry of the schedule: a core issues (01 R10), a matrix unit tries its bundle (10 R226), an agent or the
outside world acts, time passes, an error strikes (13 R317), a cached line leaves. -/
namespace Sys2Proof.Machine

/-- A piece of a step. -/
inductive Job where
  | exec (a : Actor) (i : Instr)
  | settle (c : Nat)                    -- an instruction has been made again (entry 12)
  | advance (k : Nat) (u : MxUnit)      -- MXPC moves past the bundle (09 R223)
  | number (k : Nat) (u : MxUnit)       -- the bundle takes its number (10 R226)
  deriving DecidableEq, Repr

/-- Whether the op of a bundle stands in the S slot (09 R215). -/
def inS : Instr → Bool
  | .take _ | .give _ | .hrel _ | .sadd _ _ _ | .ssub _ _ _ | .sand _ _ _ | .sshl _ _ _ | .saddi _ _ _ | .sldi _ _ | .sld _ _ _ | .sst _ _ _
  | .br _ _ | .brc _ _ _ _ | .loop _ _ _ | .drain | .signal _ _ | .halt | .snop | .hdrf _ _ _ => true
  | _ => false

/-- The M op of a bundle (10 R227). -/
def inM : Instr → Bool
  | .mma _ _ _ | .mmaz _ _ _ | .wload _ _ | .wdrop _ | .czero _ _ _ _ | .cload _ _ | .cstore _ _ _ _ _ _ _ | .crow _ _ _ | .cput _ _ _ =>
    true
  | _ => false

/-- The X op of a bundle. -/
def inX : Instr → Bool
  | .xexp2 _ _ _ | .xlog2 _ _ _ | .xrcp _ _ _ | .xrsq _ _ _ | .xtanh _ _ _ | .xsig _ _ _ => true
  | _ => false

/-- Ops of a bundle with their head numbers. -/
def numbered (ops : List Instr) : List (Nat × Instr) := (List.range ops.length).zip ops

/-- The pieces of a bundle that issues (10 R226, R227): all checks in head order, then M, V0, V1 and X, then the S op with MXPC moved on,
then the bundle's number. -/
def bundleJobs (k : Nat) (u : MxUnit) (ops : List Instr) : List Job :=
  let ns := numbered ops
  let run := fun (ph : Phase) (l : List (Nat × Instr)) => l.map (fun x => Job.exec (.mx k u ph x.1) x.2)
  let v := fun (i : Instr) => !inM i && !inX i && !inS i
  run .check ns ++ run .perform (ns.filter (fun x => inM x.2)) ++ run .perform (ns.filter (fun x => v x.2)) ++
    run .perform (ns.filter (fun x => inX x.2)) ++ [.advance k u] ++ run .perform (ns.filter (fun x => inS x.2)) ++ [.number k u]

/-- MXPC moved on. -/
def State.advance (s : State) (k : Nat) (u : MxUnit) : State := s.setMx k u (s.mx k u).passed

/-- A bundle has issued: the count, the next m-cycle, the counter (10 R226; 15 R360). -/
def State.number (s : State) (k : Nat) (u : MxUnit) : State :=
  let m := s.mx k u
  (s.setMx k u { m with count := m.count + 1, nextM := s.mnow + 1 }).count (.cluster k) 8 1

/-- After an instruction has been made again (entry 12): unless it is held or away, no home slice holds a request of it, and a context that it leaves
READY may issue from the next s-cycle (01 R10). -/
def State.settle (s : State) (c : Nat) : State :=
  match s.ctx? c with
  | none => s
  | some x =>
    match x.st with
    | .retry | .remote _ | .waiting (.dispatch _ _ _ false) => s
    | .idle => (s.dropWaits c).wake c
    | .reply | .fetching | .row _ | .glean _ _ _ _ _ | .gst _ _ _ | .yielding _ | .waiting _ => s.dropWaits c

/-- The row that stands for a row's requests at home slices: one for all the turns that make them again (entry 12). -/
def rowKey (i : Instr) : Instr :=
  match i with
  | .launchSelection _ => .launchSelection []
  | .handlerBind k _ => .handlerBind k []
  | .faultQueueRetry (.launch id _) => .faultQueueRetry (.launch id [])
  | .faultQueueRetry (.binder k) => .bind k
  | i => i

/-- Who acts, and the row whose requests take places where neither a context nor an engine asks. -/
def State.acting (s : State) (a : Actor) (i : Instr) : State :=
  { s with actor := a, row := match a with
      | .device => some (.row (rowKey i), false)
      | .context _ _ | .mx _ _ _ _ => none }

/-- The pieces of a step in order. A check that faults its unit ends the bundle (10 R233). -/
def runJobs (ex : Instr → State → Host.Outcome State Fault Refusal) : List Job → State → Host.Outcome State Fault Refusal
  | [], s => .next { s with actor := .device }
  | .exec a i :: l, s =>
    match ex i (s.acting a i) with
    | .next u =>
      let t := u.settleRow
      match a with
      | .mx k u .check _ => if (t.mx k u).st = .faulted then .next { t with actor := .device } else runJobs ex l t
      | _ => runJobs ex l t
    | .fault f => .fault f
    | .refused r => .refused r
  | .settle c :: l, s => runJobs ex l (s.settle c)
  | .advance k u :: l, s => runJobs ex l (s.advance k u)
  | .number k u :: l, s => runJobs ex l (s.number k u)

/-- A core's turn. `kept` still has the turn, which waits for a fill; `next` has it used. A fetch that fails is made by the trap's own step, which
takes the fault it meets (13 R304). A miss of a line away from this device joins one outstanding there for its die (14 R331). -/
def State.coreTurn (kept next : State) (n : Nat) : State × List Job :=
  match next.nextReady n with
  | none => (next, [])
  | some c =>
    match next.ctx? c with
    | none => (next, [])
    | some x =>
      let held := fun (t : State) => t.modCtx c (fun y => { y with st := .fetching })
      match next.fetch c x with
      | (s1, .word w) =>
        (match decodeSwarm w with
         | .ok i => ((s1.dropWaits c).issued c, [.exec (.context c w) i])
         | .error _ => ((s1.dropWaits c).issued c, [.exec (.context c w) (.illegalWord w)]))
      | (_, .failed _) => (next.issued c, [.exec (.context c 0) .fetchFault])
      | (s1, .held) => (held s1, [])
      | (s1, .away pa) =>
        let s2 := if (s1.joined (n / 256) (pa / 64)).isEmpty then s1.send x.region (x.level == .user) false (pa / 64 * 64) (.read 64) else s1
        (s2.modCtx c (fun y => { y with st := .remote ⟨0, x.pc, 2, pa / 64 * 64, 64, [], [], .fetchLine (pa / 64), false⟩, iw := 0 }), [])
      | (s1, .fill line) =>
        if s1.fillHeld c line then (held (s1.waitAt (some (.ctx c)) (localOf (64 * line) / 64)), [])
        else (kept, [.exec .device (.fetchFill n line)])

/-- A GIVE of a bundle that nothing else holds and that must queue its request first (10 R226, R235). -/
def State.giveAsks (s : State) (k : Nat) (u : MxUnit) (ops : List Instr) : List Job :=
  if (s.mx k u).giving.isSome then []
  else (ops.filter (fun i => s.giveHeld k u i)).map (fun i => Job.exec (.mx k u .perform 0) i)

/-- Whether something other than a full shelf holds a bundle: its registers, ranges, array or events, or the spacing of an SLD (10 R226, R230 to
R232, R252). -/
def State.bundleHeld (s : State) (k : Nat) (u : MxUnit) (ops : List Instr) : Bool :=
  ops.any (s.opHeld k (s.mx k u)) || decide (s.mnow < (s.mx k u).sldFree)

/-- A matrix unit tries the bundle at MXPC (10 R226). -/
def State.mxTry (s : State) (k : Nat) (u : MxUnit) : State × List Job :=
  let m := s.mx k u
  let waits := (s.setMx k u { m with nextM := s.mnow + 1 }).count (.cluster k) 9 1
  match m.fetch with
  | .error (head, _) => (s, [.exec (.mx k u .alone head) .illegalBundle])
  | .ok ops =>
    if s.bundleHeld k u ops then (waits, [])
    else if ops.any (s.giveHeld k u) then (waits, s.giveAsks k u ops)
    else (s, bundleJobs k u ops)

/-- What a matrix unit does before anything else of its m-cycle: a pending write lands, or an M op completes (10 R229, R230). -/
def State.mxEvent (s : State) (e : Nat × MxUnit) : Option Instr :=
  let m := s.mx e.1 e.2
  if m.st != .faulted && m.nextDue.isSome then some (.pendingWriteLand e.1 e.2)
  else if (m.nextDone s.mnow).isSome then some (.mOpCompletion e.1 e.2)
  else none

/-- The matrix units in the order in which they act in an s-cycle: every mx0 before its mx1 (12 R289). -/
def State.units (s : State) : List (Nat × MxUnit) :=
  s.clusters.map (fun e => (e.1, MxUnit.mx0)) ++ s.clusters.map (fun e => (e.1, MxUnit.mx1))

/-- Whether a matrix unit tries its bundle now: in the first s-cycle of each m-cycle, before every other agent of that s-cycle (10 R226; 12
R289). -/
def State.triesNow (s : State) (e : Nat × MxUnit) : Bool := s.beat == 0 && s.now % 2 == 0 && s.mxTries e.1 e.2

/-- The s-cycles among the next n in which a core issues nothing: all but the present one, where it has just issued (15 R360). -/
def State.idleCycles (s : State) (n core : Nat) : Nat := n - if (s.core core).nextIssue = s.now + 1 then 1 else 0

/-- The s-cycles among the next n in which the special-function unit of a core serves a request (06 R148; 15 R360). -/
def State.sfuCycles (s : State) (n core : Nat) : Nat := Nat.min n ((s.core core).sfuFree - s.now)

/-- The counters of a cluster that count s-cycles (15 R360, sources 2 and 3), over the next n. -/
def State.countCycles (s : State) (n k : Nat) : State :=
  let cores := [4 * k, 4 * k + 1, 4 * k + 2, 4 * k + 3]
  (s.count (.cluster k) 2 ((cores.map (s.idleCycles n)).sum)).count (.cluster k) 3 ((cores.map (s.sfuCycles n)).sum)

/-- One s-cycle passes (00 R4, 01 R30; 12 R292; 15 R360). DESIGN CHOICE (entry 58); unsafe. -/
def State.elapse (s : State) : State :=
  let t := ((s.clusters.map (·.1)).foldl (fun t k => t.countCycles 1 k) s).forwardQueries
  { t with now := s.now + 1, cycle := s.cycle.map (· + 1), beat := 0 }

/-- A die leaves reset: its CYCLE counts from now, so that the dies of a package are not aligned (01 R30). No context runs before stage 3 (15 R344).
DESIGN CHOICE (entry 81); safe. -/
def State.dieStart (s : State) (d : Nat) : State := if s.ctl.stage < 3 then { s with cycle := setAt s.cycle d 0 } else s

/-- An uncorrectable error strikes a granule of this device's memory (13 R317). DESIGN CHOICE (entry 38); safe. -/
def State.strike (s : State) (g : Nat) : State :=
  match placeLocal (8 * g) with
  | .hbm | .pad _ _ | .store _ _ => { s with bad := insertNat g s.bad }
  | .mmio | .host | .hole | .remote _ => s

/-- One strikes a line of a bundle store. -/
def State.strikeLine (s : State) (k : Nat) (u : MxUnit) (line : Nat) : State :=
  let m := s.mx k u
  if line < 1024 then s.setMx k u { m with badLines := insertNat line m.badLines } else s

/-- One strikes a tile register, or a body that an M op in flight reads (10 R233): the register, and every M op in flight that uses it, are
marked lost. -/
def State.strikeReg (s : State) (k : Nat) (u : MxUnit) (t : TileReg) : State :=
  let m := s.mx k u
  let fl := m.flight.map (fun f => if f.reads.contains t || f.writes.contains t then { f with lost := true } else f)
  s.setMx k u (match t with
    | .c n => { m with flight := fl, c := m.c.insert n.toNat { m.creg n with lost := true } }
    | .b n => { m with flight := fl, b := m.b.map (fun e => if e.1 = n.toNat then (e.1, { e.2 with lost := true }) else e) }
    | .h _ => { m with flight := fl })

/-- One strikes another register of a unit (13 R317). -/
def State.strikeMx (s : State) (k : Nat) (u : MxUnit) (r : MxReg) : State :=
  let m := s.mx k u
  if m.badRegs.contains r then s else s.setMx k u { m with badRegs := r :: m.badRegs }

/-- The bytes of doubleword n of the body of a CSTORE in flight, where it has not performed already. -/
def MFlight.beat (f : MFlight) (n : Nat) : Option (Nat × List Byte) :=
  match f.result with
  | .store off ext cells early =>
    if 4 ≤ n && 8 * n + 8 ≤ ext && !early.contains n then some (off + 8 * n, memRead cells (8 * n) 8) else none
  | .acc _ _ | .slot _ _ | .nothing => none

/-- The M op with a doubleword of its store performed. -/
def MFlight.performed (f : MFlight) (n : Nat) : MFlight :=
  match f.result with
  | .store off ext cells early => { f with result := .store off ext cells (n :: early) }
  | .acc _ _ | .slot _ _ | .nothing => f

/-- A doubleword of a CSTORE in flight reaches its bank before the op ends (10 R241). -/
def State.cstoreBeat (s : State) (k : Nat) (u : MxUnit) (n : Nat) : State :=
  let m := s.mx k u
  match indexOf? (fun (f : MFlight) => (f.beat n).isSome) m.flight with
  | none => s
  | some i =>
    match m.flight[i]? with
    | none => s
    | some f =>
      match f.beat n, s.crew? k with
      | some (o, bs), some _ => (s.setMx k u { m with flight := setAt m.flight i (f.performed n) }).poke (padAddr k o) bs
      | _, _ => s

/-- Events of sources that no step shows (15 R360). DESIGN CHOICE (entry 45); safe. -/
def State.countOutside (s : State) (d : Nat) (k : Option Nat) (src n region : Nat) : State :=
  match k with
  | some k => if src = 7 || src = 12 then s.count (.cluster k) src n else s
  | none => if src = 2 || src = 3 || (9 ≤ src && src ≤ 11) then s.count (.die d region) src n else s

/-- Bound cores, each once. -/
def boundCores : List (Nat × Ctx) → List Nat
  | [] => []
  | e :: l => let r := boundCores l; if r.head? = some (coreOf e.1) then r else coreOf e.1 :: r

/-- What a context in flight or waiting may be given by this device alone. -/
def ctxOps (e : Nat × Ctx) : List Instr :=
  match e.2.st with
  | .reply | .retry | .fetching | .row _ | .glean _ _ _ _ _ => [.memoryReply e.1 .here]
  | .yielding _ => [.yieldEnd e.1]
  | .waiting (.dispatch _ _ _ _) => [.faultQueueRetry (.context e.1)]
  | .waiting _ | .idle | .remote _ | .gst _ _ _ => []

/-- What a core may do beside issuing. -/
def coreOps (e : Nat × Core) : List Instr :=
  (if e.2.sfu.isEmpty then [] else [.sfuResult e.1]) ++ (if e.2.path.isEmpty then [] else [.storePathPerform e.1 0])

/-- What the binder of a cluster may do. -/
def binderOps (e : Nat × Cluster) : List Instr :=
  (if e.2.handlers.isEmpty then [] else [.handlerBind e.1 []]) ++ (if e.2.tq.total = 0 then [] else [.bind e.1])

/-- What else a cluster may do. -/
def clusterOps (e : Nat × Cluster) : List Instr :=
  let cl := e.2
  (if cl.notices.isEmpty then [] else [.faultQueueRetry (.notice e.1)]) ++
  (if cl.mx0.queue.isEmpty then [] else [.servePendingRequest e.1 .mx0]) ++
  (if cl.mx1.queue.isEmpty then [] else [.servePendingRequest e.1 .mx1])

/-- What ends a crew or its cluster's draining. -/
def endOps (e : Nat × Cluster) : List Instr :=
  match e.2.owner with
  | .crew _ _ => [.crewRetirement e.1]
  | .draining _ _ => [.clusterDrainEnd e.1]
  | .free => []

/-- What ends the ROM's check where it has passed (15 R344). The commands of the mailboxes are turns of the schedule (entry 54). -/
def State.romOps (s : State) : List Instr := if s.ctl.stage = 1 && !s.ctl.fwerr then [.romCheckEnd true] else []

/-- The region command at the head of its queue (15 R351). -/
def cmdOp (q : RegCmd) : Instr :=
  match q.cmd with
  | 2 => .preempt
  | 3 => .resume
  | 4 => .haltCommand
  | 5 => .deactivate
  | _ => .activate

/-- What the coordinator and the directory may do. -/
def State.coordinatorOps (s : State) : List Instr :=
  (s.ctl.regcmd.take 1).map cmdOp ++
  (if s.co.preempts.isEmpty then [] else [.preemptionEvent, .copyOut]) ++
  (if s.co.resumes.isEmpty then [] else [.resumeCopyBack]) ++
  s.co.launchRetry.map (fun e => .faultQueueRetry (.launch e.1 [])) ++
  (if s.co.regions.any (fun e => e.2.state == .active) then [.launchSelection []] else []) ++
  (if s.co.queries.isEmpty then [] else [.wdqGrant]) ++
  s.spilled.map (fun pa => .descriptorRefetch pa)

/-- What the copy engines and the gleans in flight may do. -/
def State.engineOps (s : State) : List Instr :=
  (s.engines.map (fun e => if e.2.queue.isEmpty then [] else [Instr.copyQuantum e.1 []])).flatten ++
  (if s.gldms.isEmpty then [] else [.gldmResult 0 []])

/-- The place of a turn in its s-cycle: a binder acts before what an s-cycle pushes and frees (12 R286), and a crew retires, or a cluster returns,
after it (12 R287). 0 is a turn without a place. -/
def Turn.rank (t : Turn) : Nat :=
  match t with
  | .op (.bind _) | .op (.handlerBind _ _) | .op (.faultQueueRetry (.binder _)) => 1
  | .op (.crewRetirement _) | .op (.clusterDrainEnd _) => 3
  | .core _ | .op _ | .storer _ | .redefer _ | .gleanRead _ _ | .gldmRead _ _ | .cstoreBeat _ _ _ | .chargeHbm _ _ | .dropHbm _ _ => 2
  | .elapse _ | .dieStart _ | .softError _ | .softErrorLine _ _ _ | .softErrorReg _ _ _ | .softErrorMx _ _ _ | .evictL1d _ _ | .evictICache _ _ | .evictTlb _ _
  | .evictClusterTlb _ _ | .evictEngineTlb _ _ | .evictFetch _ _ | .evictHost _ | .counted _ _ _ _ _ | .spill _ => 0

/-- The row that makes a row's waiting requests again: those of another device have arrived already. -/
def againRow (i : Instr) : Instr :=
  match i with
  | .dxlFlitReceive _ => .remoteAccess
  | i => i

/-- The rows whose requests wait at home slices, or for the answer to a ring entry's write: each is made again in its place of the s-cycle
(12 R298). -/
def State.rowOps (s : State) (place : Nat) : List Instr :=
  ((s.waits.map (·.1) ++ s.io.rings.filterMap (·.who)).filterMap (fun w =>
    match w with
    | .row i => if Turn.rank (.op (againRow i)) = place then some (againRow i) else none
    | .ctx _ | .path _ | .engine | .writes | .storer _ => none)).eraseDups

/-- What other devices have asked and no step has answered. -/
def State.remoteOps (s : State) : List Instr := if s.io.dxlIn.isEmpty then [] else [.remoteAccess]

/-- The ports and other storers with a posted write that waits: each tries its oldest again (14 R336). -/
def State.storersWaiting (s : State) : List Turn := ((s.io.posts.map (·.1)).eraseDups).map Turn.storer

/-- The agents of this device that may act, each once: the round that an empty schedule goes through (entry 3). -/
def State.agents (s : State) : List Turn :=
  ((s.clusters.map binderOps).flatten ++ s.rowOps 1).map Turn.op ++
  ((s.ctxs.map ctxOps).flatten ++ (s.cores.map coreOps).flatten ++ (s.clusters.map clusterOps).flatten ++ s.engineOps ++ s.coordinatorOps ++
    s.romOps ++ s.remoteOps ++ s.rowOps 2).map Turn.op ++
  ((s.ctxs.filter (fun e => s.undeferred e.1 e.2)).map (fun e => Turn.redefer e.1)) ++ s.storersWaiting ++
  (boundCores s.ctxs).map Turn.core ++ ((s.clusters.map endOps).flatten ++ s.rowOps 3).map Turn.op

/-- The turn that comes, and the state with it used: the schedule's head, or the next agent of the round, or, after the last, an s-cycle.
DESIGN CHOICE (entry 3); safe. -/
def State.turn (s : State) : Turn × State :=
  match s.turns with
  | t :: l => (t, { s with turns := l })
  | [] =>
    match s.agents[s.auto]? with
    | some t => (t, { s with auto := s.auto + 1 })
    | none => (.elapse 1, { s with auto := 0 })

/-- The oldest posted write of a storer that waits. -/
def State.oldestPost (s : State) (st : Storer) : Option PostWhat := (s.io.posts.find? (fun p => p.1 == st)).map (·.2)

/-- A posted write of a storer made by itself, and whether it is over (14 R336). -/
def State.postNow (s : State) (st : Storer) (what : PostWhat) : State × Bool :=
  match what, st with
  | .reg a v, _ => s.storeNow st a v
  | .bar2 a bs, .port p => (s.bar2Now p a bs, true)
  | .bar2 _ _, .service => (s, true)
  | .bar2 _ _, .context _ => (s, true)
  | .work qp v, _ => (s.workNow st qp v, true)

/-- The oldest waiting write of a storer is tried again, and leaves once it is over. -/
def State.storerTurn (s : State) (st : Storer) : State :=
  match s.oldestPost st with
  | none => s
  | some what =>
    match s.postNow st what with
    | (s1, true) => { s1 with io := { s1.io with posts := s1.io.posts.erase (st, what) } }
    | (s1, false) => s1

/-- Whether a store to DEVSEM comes too late for its s-cycle (15 R347). -/
def State.semTurnLate (s : State) (t : Turn) : Bool :=
  match t with
  | .op (.acq st) | .op (.rel st) => s.semLate st
  | .op (.registerWrite st addr _) => regAt addr == .devsem && placeLocal addr == .mmio && s.semLate st
  | .storer st =>
    (match s.oldestPost st with
     | some (.reg a _) => regAt a == .devsem && s.semLate st
     | some (.bar2 _ _) | some (.work _ _) | none => false)
  | _ => false

/-- Whether a turn comes too late for its place in this s-cycle: it is taken in the next one. -/
def State.tooLate (s : State) (t : Turn) : Bool := (Turn.rank t != 0 && decide (Turn.rank t < s.beat)) || s.semTurnLate t

/-- The s-cycle has come as far as a turn's place. -/
def State.atPlace (s : State) (t : Turn) : State := { s with beat := Nat.max s.beat (Turn.rank t) }

/-- The instruction that a held context makes again when its reply comes (entry 12), with its word. -/
def State.remade (s : State) (c : Nat) : Option (Word32 × Instr) :=
  match s.ctx? c with
  | some x =>
    if x.st = .retry then (match decodeSwarm x.iw with
      | .ok i => some (x.iw, i)
      | .error _ => none)
    else none
  | none => none

/-- The pieces of a row of the table that is taken as a turn: a reply to a context that is held has its instruction made again. -/
def State.opJobs (s : State) (i : Instr) : List Job :=
  match i with
  | .memoryReply c _ =>
    (match s.remade c with
     | some (w, j) => [.exec .device i, .exec (.context c w) j, .settle c]
     | none => [.exec .device i])
  | _ => [.exec .device i]

/-- What a turn does: a state and the pieces that run from it. `s` still has the turn, and `t` has it used. -/
def State.planTurn (s t : State) (turn : Turn) : State × List Job :=
  match turn with
  | .core n => s.coreTurn t n
  | .op i => (t, t.opJobs i)
  | .elapse n => (if n = 0 then t else State.elapse (if n = 1 then t else { t with turns := .elapse (n - 1) :: t.turns }), [])
  | .dieStart d => (t.dieStart d, [])
  | .softError g => (t.strike g, [])
  | .softErrorLine k u line => (t.strikeLine k u line, [])
  | .softErrorReg k u r => (t.strikeReg k u r, [])
  | .softErrorMx k u r => (t.strikeMx k u r, [])
  | .evictL1d n line => (t.setCore n { t.core n with l1d := (t.core n).l1d.erase line }, [])
  | .evictICache n line => (t.setCore n { t.core n with icache := (t.core n).icache.erase line }, [])
  | .evictTlb n i => (t.setCore n { t.core n with tlb := dropAt (t.core n).tlb i }, [])
  | .evictClusterTlb k i => (t.setCluster k { t.cluster k with tlb := dropAt (t.cluster k).tlb i }, [])
  | .evictEngineTlb e i => (t.setEngine e { t.engine e with tlb := dropAt (t.engine e).tlb i }, [])
  | .evictFetch d line => ({ t with io := { t.io with fetchBuf := setAt t.io.fetchBuf d ((t.lineBuffer d).erase line) } }, [])
  | .evictHost line => ({ t with io := { t.io with hostCache := t.io.hostCache.erase line } }, [])
  | .counted d k src n region => (t.countOutside d k src n region, [])
  | .chargeHbm region pages => (t.chargeHbm region pages, [])
  | .dropHbm region pages => (t.dropHbm region pages, [])
  | .spill pa => ({ t with spilled := if t.spilled.contains pa then t.spilled else pa :: t.spilled }, [])
  | .storer st => (t.storerTurn st, [])
  | .redefer c => (t.redeferTurn c, [])
  | .gleanRead c rank => (gleanTurn c rank t, [])
  | .gldmRead n rank => (gldmTurn n rank t, [])
  | .cstoreBeat k u n => (t.cstoreBeat k u n, [])

/-- The timer that makes its request next: the first of a cluster by header offset (03 R78; 12 R291). -/
def State.timerNow (s : State) : Option (Nat × Nat) :=
  s.clusters.findSome? (fun e =>
    ((e.2.timers.map (·.hdr)).filter (fun h => (s.timerDue e.1 h).isSome)).foldl (fun (m : Option (Nat × Nat)) h =>
      some (e.1, match m with | none => h | some p => Nat.min p.2 h)) none)

/-- What no schedule puts off: a pending write lands and an M op completes when it is time, each matrix unit tries its bundle in each m-cycle, and a
timer expires at its deadline (03 R78; 10 R226, R229, R230; 12 R289). -/
def State.due (s : State) : Option (State × List Job) :=
  match s.units.findSome? s.mxEvent with
  | some i => some (s, [.exec .device i])
  | none =>
    match s.units.find? s.triesNow with
    | some e => some (s.mxTry e.1 e.2)
    | none => s.timerNow.map (fun e => (s, [.exec .device (.timerExpiry e.1 e.2)]))

/-- What a step does: a state and the pieces that run from it. DESIGN CHOICE (entry 3); safe. -/
def State.plan (s : State) : State × List Job :=
  match s.due with
  | some r => r
  | none =>
    let q := s.turn
    if s.tooLate q.1 then (s.elapse, []) else (s.atPlace q.1).planTurn (q.2.atPlace q.1) q.1

end Sys2Proof.Machine
end

