-- ==== Sys2Proof/Machine/Seat.lean ====
section
/-! DEFINITION. An instruction placed where the next step fetches it (entry 4): what a launch, a bind and the fills of 01 R17, R20, R26 and
14 R331 would have set. -/
namespace Sys2Proof.Machine

/-- Virtual and local physical address of the word placed. -/
def seatAddr : Nat := 0x10000
/-- The region placed: its RCB stands at 0x1000, and its fields at their smallest. -/
def seatRegion : Region :=
  ⟨0x1000, 1, .active, 0, 0, none, 256, 65536, 8, 0, 1, 0, 0, 0, 0, 0, 0, 1, 1, 0, false⟩
/-- The context placed, in slot 0 of core 0, at supervisor level. -/
def seatCtx : Ctx where
  pc := word seatAddr
  wp := word (wsAddr 0 0)
  home := word (wsAddr 0 0)
  rid := 1
  bind2 := word (2 ^ 32)
  bind3 := 0
  arg0 := 0
  arg1 := 0
  arg2 := 0
  level := .supervisor
  fcsr := 0
  events := 0
  trappc := 0
  trapinfo := 0
  trapaddr := 0
  tvbase := 0x20000
  asid := 1
  dtb := 0
  gtb := 0
  st := .idle
  held := false
  iw := 0
  got := []
  granted := []
  mark := none

/-- The device in stage 3 with every feature it offers, and a crew of region 1 on cluster 0. DESIGN CHOICE (entry 4); safe. -/
def State.seatCrew (s : State) : State :=
  let n := s.co.nextSerial
  let s1 := { s with
    ctl := { s.ctl with stage := 3, trained := true, featGrant := s.ctl.featOffer ||| 1 },
    co := { s.co with nextSerial := n + 1, preempts := [], regions := s.co.regions.insert 1 seatRegion,
                      spans := ⟨n, 1, [⟨0, false⟩], none, 0, 0, 0, 0, 0, false⟩ :: s.co.spans } }
  s1.setCluster 0 { s1.cluster 0 with owner := .crew n 0, frozen := false, notices := [] }

/-- A swarm word in memory, in the core's I-cache and behind its TLB, with the core's turn first: the matrix units have had theirs in this
s-cycle. -/
def State.seatWord (s : State) (w : Word32) : State :=
  let s1 := (s.seatCrew.poke seatAddr (leBytes 4 w.toNat)).setCtx 0 seatCtx
  let base := s1.ctl.devid * Config.localEnd + seatAddr
  let k := s1.core 0
  let s2 := s1.setCore 0 { k with
    lastSlot := 63, nextIssue := 0, issueAt := k.issueAt.erase 0, used := insertNat 0 k.used,
    tlb := [⟨1, 1, 16, word (base + 0x1F)⟩], icache := k.icache.insert (base / 64) (s1.lineAt (seatAddr / 64)) }
  { s2 with turns := .core 0 :: s2.turns, beat := 1 }

/-- A line in the bundle store of mx0 of cluster 0, which runs, at the start of an m-cycle, where the unit acts first. A handle on its shelf lets
a TAKE run. -/
def State.seatBundle (s : State) (line : BitVec 512) : State :=
  let s1 := s.seatCrew
  let s2 := s1.setMx 0 .mx0 { Mx.fresh with st := .run, store := [(0, line)], shelf := [0] }
  { s2 with now := s.now + s.now % 2, beat := 0 }

end Sys2Proof.Machine
end

