-- ==== Sys2Proof/Machine/Step.lean ====
section
/-! DEFINITION. One step of the part: the turn that comes, and the instructions that it runs. -/
namespace Sys2Proof.Machine

/-- One step (entry 3). -/
def step (s : State) : Host.Outcome State Fault Refusal := runJobs exec s.plan.2 s.plan.1

/-- The state with an instruction placed where the next step fetches it (entry 4): an MX line of 512 bits, or a swarm word. -/
def State.withFetchWord (s : State) (nbits w : Nat) : State :=
  if nbits = 512 then s.seatBundle (BitVec.ofNat 512 w) else s.seatWord (BitVec.ofNat 32 (w % 2 ^ nbits))

end Sys2Proof.Machine
end

