-- ==== Sys2Proof/Safety.lean ====
section
/-! DEFINITION. What a safe run is: a run of steps that answers a next state each time. The machine's own exceptions are next states
(13 R308 to R316); a fault or a refusal of `step` is a stop of the model. -/
namespace Sys2Proof

/-- The machine goes on from a state. -/
def GoesOn (s : Machine.State) : Prop := ∃ t, Machine.step s = .next t

/-- Every step of the first n goes on. -/
def Safe : Nat → Machine.State → Prop
  | 0, _ => True
  | n + 1, s => ∃ t, Machine.step s = .next t ∧ Safe n t

end Sys2Proof
end

