-- ==== Sys2Proof/Safety/Claims.lean ====
section
/-! DEFINITION. The words in which statements are made: whose turn it is, what lets an instruction run, what it leaves, and the forms of the
instructions as the tables of the spec list them, with their values in the spec's own terms. -/
namespace Sys2Proof.Machine

/-- It is the turn of the context in slot c, whose instruction word is w. -/
def State.acts (s : State) (c : Nat) (w : Word32) (x : Ctx) : Prop := s.actor = .context c w ∧ s.ctx? c = some x

/-- Nothing stops an instruction before its own effect: its fields are defined, the die has the features it needs, its level may run it,
and no register it reads has an uncorrectable error (04 R93 steps 2 to 4; 13 R317). -/
def State.lets (s : State) (c : Nat) (x : Ctx) (i : Instr) (feats : List Nat) (sup : Bool) (srcs : List Reg) : Prop :=
  i.WellFormed ∧ (∀ b ∈ feats, (s.feat (dieOfCluster (clusterOf c))).getLsbD b = true) ∧ (sup = true → x.level = .supervisor) ∧
  ∀ r ∈ srcs, r = 0 ∨ badIn s.bad (x.wp.toNat + 8 * r.toNat) 8 = false

/-- A context moved past its instruction, in a state of its own. -/
def State.past (s : State) (c : Nat) (x : Ctx) (st : CtxState) : State :=
  s.modCtx c (fun y => { y with pc := x.pc + 4, st := st, got := [], mark := none })

/-- A context whose instruction is held: where it waits, with its word and its place among the entries of its core's store path. -/
def State.stays (s : State) (c : Nat) (w : Word32) (st : CtxState) : State :=
  s.modCtx c (fun y => { y with st := st, iw := w, mark := some (s.issuedAt c) })

/-- A context moved to an address. -/
def State.goes (s : State) (c : Nat) (pc : Word) : State := s.modCtx c (fun y => { y with pc := pc, st := .idle, got := [], mark := none })

/-- The destination gets a value, and the context goes on. -/
def State.gives (s : State) (c : Nat) (x : Ctx) (d : Reg) (v : Word) : State := (s.setReg x d v).past c x .idle

/-- The bytes of a register in its context's workspace (01 R11): none for w0. -/
def regBytes (x : Ctx) (d : Reg) (a : Nat) : Prop := d ≠ 0 ∧ x.wp.toNat + 8 * d.toNat ≤ a ∧ a < x.wp.toNat + 8 * d.toNat + 8

/-- A granule that a write of a register replaces whole (13 R317). -/
def regGranule (x : Ctx) (d : Reg) (g : Nat) : Prop :=
  d ≠ 0 ∧ x.wp.toNat + 8 * d.toNat ≤ 8 * g ∧ 8 * g + 8 ≤ x.wp.toNat + 8 * d.toNat + 8

/-- A word of the R format with major 0 (04 R85): d, a, b, modifier, function. -/
def aluWord (d a b m : Reg) (f : BitVec 6) : Word32 := (0 : BitVec 6) ++ d ++ a ++ b ++ m ++ f
/-- A word of the I or B format (04 R85). -/
def immWord (maj : BitVec 6) (d a : Reg) (k : BitVec 16) : Word32 := maj ++ d ++ a ++ k
/-- The decoder reads an instruction from a word. -/
def reads (w : Word32) (i : Instr) : Prop := decodeSwarm w = .ok i

/-- A register form of the spec's tables: destination, sources, value. -/
structure WordForm where
  d : Reg
  srcs : List Reg
  v : Word
  deriving DecidableEq, Repr

/-- Number of leading zero bits, as 05 R104 counts them. -/
def leadZeros (a : Word) : Nat := (((List.range 64).map (fun i => a.getLsbD (63 - i))).takeWhile (fun b => !b)).length
/-- Number of trailing zero bits. -/
def trailZeros (a : Word) : Nat := (((List.range 64).map (fun i => a.getLsbD i)).takeWhile (fun b => !b)).length
/-- Number of one bits. -/
def oneBits (a : Word) : Nat := ((List.range 64).map (fun i => if a.getLsbD i then 1 else 0)).sum

/-- The table of 05 R104; `r` reads a register. -/
def aluForm (r : Reg → Word) (i : Instr) : Option WordForm :=
  match i with
  | .add d a b => some ⟨d, [a, b], r a + r b⟩
  | .sub d a b => some ⟨d, [a, b], r a - r b⟩
  | .mul d a b => some ⟨d, [a, b], BitVec.ofNat 64 ((r a).toNat * (r b).toNat)⟩
  | .mulh d a b => some ⟨d, [a, b], ((r a).signExtend 128 * (r b).signExtend 128).extractLsb' 64 64⟩
  | .mulhu d a b => some ⟨d, [a, b], ((r a).setWidth 128 * (r b).setWidth 128).extractLsb' 64 64⟩
  | .and d a b => some ⟨d, [a, b], r a &&& r b⟩
  | .or d a b => some ⟨d, [a, b], r a ||| r b⟩
  | .xor d a b => some ⟨d, [a, b], r a ^^^ r b⟩
  | .clz d a => some ⟨d, [a], word (leadZeros (r a))⟩
  | .ctz d a => some ⟨d, [a], word (trailZeros (r a))⟩
  | .popc d a => some ⟨d, [a], word (oneBits (r a))⟩
  | .min d a b => some ⟨d, [a, b], if (r a).toInt ≤ (r b).toInt then r a else r b⟩
  | .max d a b => some ⟨d, [a, b], if (r b).toInt ≤ (r a).toInt then r a else r b⟩
  | .minu d a b => some ⟨d, [a, b], if (r a).toNat ≤ (r b).toNat then r a else r b⟩
  | .maxu d a b => some ⟨d, [a, b], if (r b).toNat ≤ (r a).toNat then r a else r b⟩
  | .slt d a b => some ⟨d, [a, b], if (r a).toInt < (r b).toInt then 1 else 0⟩
  | .sltu d a b => some ⟨d, [a, b], if (r a).toNat < (r b).toNat then 1 else 0⟩
  | _ => none

/-- Quotient and remainder of the pseudocode of 05 R106. -/
def quoRem (signed : Bool) (a b : Word) : Int × Int :=
  let x : Int := if signed then a.toInt else a.toNat
  let y : Int := if signed then b.toInt else b.toNat
  if y = 0 then (-1, x)
  else if signed = true ∧ x = -2 ^ 63 ∧ y = -1 then (-2 ^ 63, 0)
  else (x.tdiv y, x - x.tdiv y * y)

/-- DIV, DIVU, REM, REMU with their results modulo 2^64 (05 R106). -/
def divForm (r : Reg → Word) (i : Instr) : Option WordForm :=
  match i with
  | .div d a b => some ⟨d, [a, b], BitVec.ofInt 64 (quoRem true (r a) (r b)).1⟩
  | .divu d a b => some ⟨d, [a, b], BitVec.ofInt 64 (quoRem false (r a) (r b)).1⟩
  | .rem d a b => some ⟨d, [a, b], BitVec.ofInt 64 (quoRem true (r a) (r b)).2⟩
  | .remu d a b => some ⟨d, [a, b], BitVec.ofInt 64 (quoRem false (r a) (r b)).2⟩
  | _ => none

/-- Shifts and rotates (05 R107): the amount is Ws(b)[5:0], or the instruction's. -/
def shiftForm (r : Reg → Word) (i : Instr) : Option WordForm :=
  let shl := fun (a : Word) (n : Nat) => BitVec.ofNat 64 (a.toNat * 2 ^ n)
  let shr := fun (a : Word) (n : Nat) => BitVec.ofNat 64 (a.toNat / 2 ^ n)
  let sra := fun (a : Word) (n : Nat) => BitVec.ofInt 64 (a.toInt / 2 ^ n)
  let rot := fun (a : Word) (n : Nat) => a.rotateRight n
  let n := fun (b : Reg) => (r b).toNat % 64
  match i with
  | .shl d a b => some ⟨d, [a, b], shl (r a) (n b)⟩
  | .shr d a b => some ⟨d, [a, b], shr (r a) (n b)⟩
  | .sra d a b => some ⟨d, [a, b], sra (r a) (n b)⟩
  | .rot d a b => some ⟨d, [a, b], rot (r a) (n b)⟩
  | .shli d a k => some ⟨d, [a], shl (r a) k.toNat⟩
  | .shri d a k => some ⟨d, [a], shr (r a) k.toNat⟩
  | .srai d a k => some ⟨d, [a], sra (r a) k.toNat⟩
  | .roti d a k => some ⟨d, [a], rot (r a) k.toNat⟩
  | _ => none

/-- Immediate arithmetic, LDHI and ADDPC (05 R108, R110, R111). -/
def immForm (r : Reg → Word) (pc : Word) (i : Instr) : Option WordForm :=
  match i with
  | .addi d a k => some ⟨d, [a], r a + k.signExtend 64⟩
  | .andi d a k => some ⟨d, [a], r a &&& k.setWidth 64⟩
  | .ori d a k => some ⟨d, [a], r a ||| k.setWidth 64⟩
  | .xori d a k => some ⟨d, [a], r a ^^^ k.setWidth 64⟩
  | .slti d a k => some ⟨d, [a], if (r a).toInt < k.toInt then 1 else 0⟩
  | .ldhi d k => some ⟨d, [d], BitVec.ofNat 64 ((r d).toNat * 65536) ||| k.setWidth 64⟩
  | .addpc d k => some ⟨d, [], pc + k.signExtend 64 * 65536⟩
  | _ => none

/-- The last bit of a field of 05 R109: bits at 64 and above do not exist. -/
def fieldHi (lo width : Nat) : Nat := Nat.min (lo + width) 64 - 1
/-- Bits hi..lo set. -/
def bitMask (hi lo : Nat) : Word := BitVec.ofNat 64 (2 ^ (hi + 1 - lo) - 1) <<< lo

/-- BFX and BFI (05 R109); the operand holds width - 1. -/
def bitfForm (r : Reg → Word) (i : Instr) : Option WordForm :=
  match i with
  | .bfx d a w l =>
    let hi := fieldHi l.toNat (w.toNat + 1)
    some ⟨d, [a], (r a &&& bitMask hi l.toNat) >>> l.toNat⟩
  | .bfi d a w l =>
    let m := bitMask (fieldHi l.toNat (w.toNat + 1)) l.toNat
    some ⟨d, [a, d], (r d &&& ~~~m) ||| ((r a <<< l.toNat) &&& m)⟩
  | _ => none

/-- Mix of 05 R112, on the exact product. -/
def mixWord (x k c m : Word) : Word :=
  let y := x ^^^ (k + c)
  let p := y.setWidth 128 * m.setWidth 128
  let z := p.extractLsb' 0 64 ^^^ p.extractLsb' 64 64
  z ^^^ (z >>> 31)

/-- The loop of 05 R113 and R114 over its constants. -/
def mixLoop (turn : Nat) (cs : List (Word × Word)) (x k : Word) : Word :=
  (cs.foldl (fun (q : Word × Word) cm => (mixWord q.1 q.2 cm.1 cm.2, q.2.rotateLeft turn)) (x, k)).1

/-- CR and CM of 05 R112. -/
def crConsts : List (Word × Word) :=
  [(0x5A173C9E0B84D2F1, 0xA3C59AC2F1B74E2D), (0x16E4A78D39C05B2F, 0x8F1B6D35C47A9E61), (0xC2B90F5E7A13864D, 0xA3C59AC2F1B74E2D),
   (0x7D40E6B195AC2F83, 0x8F1B6D35C47A9E61), (0x3B8F52D7C06E19A5, 0xA3C59AC2F1B74E2D), (0xE9651AF34D28B07C, 0x8F1B6D35C47A9E61)]
/-- HR and HM. -/
def hrConsts : List (Word × Word) :=
  [(0x2C6AF0935E71B4D8, 0xB4E38C175AD962F5), (0x9147DB2E86F03A5C, 0xB4E38C175AD962F5), (0x63F81C5AB92DE047, 0xB4E38C175AD962F5),
   (0xD85E47A10C3BF96E, 0xB4E38C175AD962F5)]

/-- SEL, HASH, CRNG (05 R105, R113, R114). -/
def mixForm (r : Reg → Word) (i : Instr) : Option WordForm :=
  match i with
  | .sel d a b c => some ⟨d, [a, b, c], if r c ≠ 0 then r a else r b⟩
  | .crng d a b => some ⟨d, [a, b], let x := mixLoop 17 crConsts (r b) (r a); x ^^^ (x >>> 29)⟩
  | .hash d a b => some ⟨d, [a, b], mixLoop 29 hrConsts (r a) (r b ^^^ 0x4F92A6E0D3178B5C)⟩
  | _ => none

/-- The bits of FEAT that a swarm instruction needs (the table of 15 R349), and whether only a supervisor may run it (01 R32). -/
def swarmNeeds (i : Instr) : List Nat × Bool :=
  let wide := fun (p : Prec) => match p with | .d => [5] | .s => ([] : List Nat)
  match i with
  | .fdiv _ _ _ _ p | .fsqrt _ _ _ p | .frcp _ _ _ p | .frsq _ _ _ p | .fexp2 _ _ _ p | .flog2 _ _ _ p => (1 :: wide p, false)
  | .fadd _ _ _ _ p | .fsub _ _ _ _ p | .fmul _ _ _ _ p | .fma _ _ _ _ p => (wide p, false)
  | .fmin _ _ _ p | .fmax _ _ _ p | .fcmp _ _ _ _ p | .fsgn _ _ _ _ p => (wide p, false)
  | .fcvt _ _ o _ => (if o = .d_s ∨ o = .s_d ∨ o = .l_d ∨ o = .lu_d ∨ o = .d_l ∨ o = .d_lu then [5] else [], false)
  | .amoFadd _ _ _ z _ _ => (if z = .d then [5] else [], false)
  | .padd .. | .psub .. | .pmul .. | .pfma .. | .pmin .. | .pmax .. | .pcmp .. | .pdot .. | .pcvt .. | .pshuf .. => ([2], false)
  | .lacz .. | .laca .. | .lacr .. => ([3], false)
  | .gld _ _ op | .gldm _ _ _ op => (4 :: (if op = .addD then [5] else []), false)
  | .gst .. | .garr .. | .gwait .. => ([4], false)
  | .topen .. | .trow .. | .telm .. | .tfill .. | .seal .. | .tfree .. | .thdr .. => ([6], false)
  | .ctwait .. | .ctany .. | .ctff .. | .ctrd .. | .xcp .. | .wdq .. => ([7], false)
  | .rdsr _ r | .wrsr _ r => ([], r.supervisor)
  | .eret => ([], true)
  | _ => ([], false)

/-- A word form of chapter 05. -/
def wordForm (r : Reg → Word) (pc : Word) (i : Instr) : Option WordForm :=
  (aluForm r i).or ((divForm r i).or ((shiftForm r i).or ((immForm r pc i).or ((bitfForm r i).or (mixForm r i)))))

/-- The condition of a branch and its offset (05 R119). -/
def branchForm (i : Instr) : Option (Reg × Reg × BitVec 16 × (Word → Word → Prop)) :=
  match i with
  | .beq a b o => some (a, b, o, fun u v => u = v)
  | .bne a b o => some (a, b, o, fun u v => u ≠ v)
  | .blt a b o => some (a, b, o, fun u v => u.toInt < v.toInt)
  | .bge a b o => some (a, b, o, fun u v => v.toInt ≤ u.toInt)
  | .bltu a b o => some (a, b, o, fun u v => u.toNat < v.toNat)
  | .bgeu a b o => some (a, b, o, fun u v => v.toNat ≤ u.toNat)
  | _ => none

/-- A load as chapter 06 lists it: destination, sources, address, bytes, acquire scope, whether a control register accepts it, and what
the bytes give. -/
structure LoadForm where
  d : Reg
  srcs : List Reg
  va : Word
  n : Nat
  acq : Scope
  mmio : Bool
  what : RemoteWhat
  deriving DecidableEq, Repr

/-- Loads (06 R130 to R133). -/
def loadForm (r : Reg → Word) (i : Instr) : Option LoadForm :=
  let im := fun (a : Reg) (k : BitVec 16) => r a + k.signExtend 64
  match i with
  | .lb d a k => some ⟨d, [a], im a k, 1, .ctx, false, .load true⟩
  | .lbu d a k => some ⟨d, [a], im a k, 1, .ctx, false, .load false⟩
  | .lh d a k => some ⟨d, [a], im a k, 2, .ctx, false, .load true⟩
  | .lhu d a k => some ⟨d, [a], im a k, 2, .ctx, false, .load false⟩
  | .lw d a k => some ⟨d, [a], im a k, 4, .ctx, false, .load true⟩
  | .lwu d a k => some ⟨d, [a], im a k, 4, .ctx, false, .load false⟩
  | .ld d a k => some ⟨d, [a], im a k, 8, .ctx, true, .load false⟩
  | .lq d a k => some ⟨d, [a], im a k, 16, .ctx, false, .pair⟩
  | .memordLb d a z => some ⟨d, [a], r a, 1, z, false, .load true⟩
  | .memordLbu d a z => some ⟨d, [a], r a, 1, z, false, .load false⟩
  | .memordLh d a z => some ⟨d, [a], r a, 2, z, false, .load true⟩
  | .memordLhu d a z => some ⟨d, [a], r a, 2, z, false, .load false⟩
  | .memordLw d a z => some ⟨d, [a], r a, 4, z, false, .load true⟩
  | .memordLwu d a z => some ⟨d, [a], r a, 4, z, false, .load false⟩
  | .memordLd d a z => some ⟨d, [a], r a, 8, z, true, .load false⟩
  | .memordLq d a z => some ⟨d, [a], r a, 16, z, false, .pair⟩
  | .lbit d a b sx w =>
    let ba := ((r a).toNat * 8 + (r b).toNat) % 2 ^ 67
    some ⟨d, [a, b], word (ba / 8), (ba % 8 + (w.toNat + 1) + 7) / 8, .ctx, false, .bits (ba % 8) (w.toNat + 1) sx⟩
  | _ => none

/-- What a load needs of its address (13 R303; 11 R261, R263). -/
def LoadForm.need (f : LoadForm) : Need :=
  { Need.load with hit := !wideScope f.acq, mmio := f.mmio && aligned8 f.va f.n }

/-- A store: sources, address, bytes, the scope of its release where it makes one, whether a control register accepts it. -/
structure StoreForm where
  srcs : List Reg
  va : Word
  bytes : List Byte
  rel : Option Scope
  mmio : Bool
  deriving DecidableEq, Repr

/-- Stores (06 R130 to R132). -/
def storeForm (r : Reg → Word) (i : Instr) : Option StoreForm :=
  let im := fun (a : Reg) (k : BitVec 16) => r a + k.signExtend 64
  let low := fun (d : Reg) (n : Nat) => leBytes n (r d).toNat
  match i with
  | .sb d a k => some ⟨[d, a], im a k, low d 1, none, false⟩
  | .sh d a k => some ⟨[d, a], im a k, low d 2, none, false⟩
  | .sw d a k => some ⟨[d, a], im a k, low d 4, none, false⟩
  | .sd d a k => some ⟨[d, a], im a k, low d 8, none, true⟩
  | .sq d a k => some ⟨[d, d + 1, a], im a k, low d 8 ++ low (d + 1) 8, none, false⟩
  | .memordSb d a z => some ⟨[d, a], r a, low d 1, some z, false⟩
  | .memordSh d a z => some ⟨[d, a], r a, low d 2, some z, false⟩
  | .memordSw d a z => some ⟨[d, a], r a, low d 4, some z, false⟩
  | .memordSd d a z => some ⟨[d, a], r a, low d 8, some z, true⟩
  | .memordSq d a z => some ⟨[d, d + 1, a], r a, low d 8 ++ low (d + 1) 8, some z, false⟩
  | _ => none

/-- What a store needs of its address. -/
def StoreForm.need (f : StoreForm) : Need := { Need.store with mmio := f.mmio && aligned8 f.va f.bytes.length }

/-- The new value of an atomic step of n bits, as a number (06 R136): old value, operand, expected value. -/
abbrev AtomicFn := (n : Nat) → BitVec n → BitVec n → BitVec n → Nat

/-- An atomic instruction: destination, address register, operand register, size, scope, order, sources, features, function, and whether it
writes an unchanged value. -/
structure AtomForm where
  d : Reg
  a : Reg
  b : Reg
  z : AmoSize
  sc : Scope
  p : Order
  srcs : List Reg
  feats : List Nat
  f : AtomicFn
  always : Bool

/-- Atomics (06 R136). -/
def atomForm (i : Instr) : Option AtomForm :=
  let mk := fun (d a b : Reg) (z : AmoSize) (sc : Scope) (p : Order) (f : AtomicFn) => some (AtomForm.mk d a b z sc p [a, b] [] f false)
  match i with
  | .amoAdd d a b z sc p => mk d a b z sc p (fun _ m v _ => (m + v).toNat)
  | .amoAnd d a b z sc p => mk d a b z sc p (fun _ m v _ => (m &&& v).toNat)
  | .amoOr d a b z sc p => mk d a b z sc p (fun _ m v _ => (m ||| v).toNat)
  | .amoXor d a b z sc p => mk d a b z sc p (fun _ m v _ => (m ^^^ v).toNat)
  | .amoMin d a b z sc p => mk d a b z sc p (fun _ m v _ => if m.toInt ≤ v.toInt then m.toNat else v.toNat)
  | .amoMax d a b z sc p => mk d a b z sc p (fun _ m v _ => if v.toInt ≤ m.toInt then m.toNat else v.toNat)
  | .amoMinu d a b z sc p => mk d a b z sc p (fun _ m v _ => Nat.min m.toNat v.toNat)
  | .amoMaxu d a b z sc p => mk d a b z sc p (fun _ m v _ => Nat.max m.toNat v.toNat)
  | .amoSwp d a b z sc p => some ⟨d, a, b, z, sc, p, [a, b], [], fun _ _ v _ => v.toNat, true⟩
  | .amocas d a b z sc p => some ⟨d, a, b, z, sc, p, [a, b, d], [], fun _ m v e => if m = e then v.toNat else m.toNat, true⟩
  | .amoFadd d a b z sc p =>
    some ⟨d, a, b, z, sc, p, [a, b], if z = .d then [5] else [],
      fun n m v _ => ((if n = 64 then fp64 else fp32).addOp 0 m.toNat v.toNat).1, false⟩
  | _ => none

/-- One value is at most another, infinities among them; a NaN compares with nothing (06 R143, R144). -/
def XVal.atMost (x y : XVal) : Prop :=
  match x, y with
  | .nan, _ => False
  | .inf _, .nan => False
  | .fin _ _ _, .nan => False
  | .inf s, .inf t => s = true ∨ t = false
  | .inf s, .fin _ _ _ => s = true
  | .fin _ _ _, .inf t => t = false
  | .fin s m e, .fin t n g => scaled s m e (min e g) ≤ scaled t n g (min e g)

/-- A code of a format with a sign. -/
def Fmt.signed (f : Fmt) (neg : Bool) (c : Nat) : Nat := (if neg then 2 ^ (f.width - 1) else 0) + c

/-- The code of an infinity, in a format that has one. -/
def Fmt.infinity (f : Fmt) (neg : Bool) : Nat := f.signed neg ((2 ^ f.ebits - 1) * 2 ^ f.fbits)

/-- A code and flags are what RoundF gives of an exact magnitude with a sign (02 R49, R50). `half p` compares p/2 of the grid 2^q with the magnitude, so
that it tells where a code lies, and where the middle of two codes does. -/
def Fmt.rounds (f : Fmt) (rm : Nat) (neg : Bool) (q : Int) (half : Nat → Ordering) (r : Nat × Nat) : Prop :=
  let away := rm = 2 ∧ neg = false ∨ rm = 3 ∧ neg = true
  let mag := fun (c : Nat) => match f.decode c with
    | .fin _ n g => some (scaled false n g q).natAbs
    | .nan => none
    | .inf _ => none
  (r.2.testBit 2 = true → (∀ c z, mag c = some z → half (2 * z) = .lt) ∧
    r.1 = if f.hasInf = true ∧ (rm = 0 ∨ away) then f.infinity neg else f.signed neg f.maxCode) ∧
  (r.2.testBit 2 = false → ∃ c y, r.1 = f.signed neg c ∧ c < 2 ^ (f.width - 1) ∧ mag c = some y ∧ (r.2.testBit 0 = true ↔ half (2 * y) ≠ .eq) ∧
    ∀ c' z, mag c' = some z →
      (rm = 0 → (y < z → half (y + z) ≠ .lt ∧ (half (y + z) = .eq → c % 2 = 0)) ∧ (z < y → half (y + z) ≠ .gt ∧ (half (y + z) = .eq → c % 2 = 0))) ∧
      (away → half (2 * y) ≠ .lt ∧ (half (2 * z) ≠ .lt → y ≤ z)) ∧
      (rm ≠ 0 → ¬ away → half (2 * y) ≠ .gt ∧ (half (2 * z) ≠ .gt → z ≤ y)))

/-- y is x / one rounded to an integer (02 R49, R52). -/
def roundedInt (rm : Nat) (x one y : Int) : Prop :=
  ∀ w : Int,
    (rm = 0 → (x - y * one).natAbs ≤ (x - w * one).natAbs ∧ ((x - y * one).natAbs = (x - w * one).natAbs → w = y ∨ y % 2 = 0)) ∧
    (rm = 1 → 0 ≤ y * x ∧ (y * one).natAbs ≤ x.natAbs ∧ ((w * one).natAbs ≤ x.natAbs → w.natAbs ≤ y.natAbs)) ∧
    (rm = 2 → x ≤ y * one ∧ (x ≤ w * one → y ≤ w)) ∧ (rm = 3 → y * one ≤ x ∧ (w * one ≤ x → w ≤ y))

/-- A floating-point form that writes a value and raises flags: destination, sources, features, value and flags. -/
structure FloatForm where
  d : Reg
  srcs : List Reg
  feats : List Nat
  vf : Nat × Nat
  deriving DecidableEq, Repr

/-- Scalar floating point (06 R141 to R146). -/
def floatForm (r : Reg → Word) (x : Ctx) (i : Instr) : Option FloatForm :=
  let arg := fun (p : Prec) (a : Reg) => match p with | .d => (r a).toNat | .s => (r a).toNat % 2 ^ 32
  let feat := fun (p : Prec) => match p with | .d => [5] | .s => []
  match i with
  | .fadd d a b m p => some ⟨d, [a, b], feat p, (fmtOf p).addOp (x.mode m) (arg p a) (arg p b)⟩
  | .fsub d a b m p => some ⟨d, [a, b], feat p, (fmtOf p).addOp (x.mode m) (arg p a) ((fmtOf p).flip (arg p b))⟩
  | .fmul d a b m p => some ⟨d, [a, b], feat p, (fmtOf p).mulOp (x.mode m) (arg p a) (arg p b)⟩
  | .fma d a b m p => some ⟨d, [a, b, d], feat p, (fmtOf p).fmaOp (x.mode m) (arg p a) (arg p b) (arg p d)⟩
  | .fmin d a b p => some ⟨d, [a, b], feat p, (fmtOf p).minMax false (arg p a) (arg p b)⟩
  | .fmax d a b p => some ⟨d, [a, b], feat p, (fmtOf p).minMax true (arg p a) (arg p b)⟩
  | .fcmp d a b q p =>
    let c := (fmtOf p).cmpOp q (arg p a) (arg p b)
    some ⟨d, [a, b], feat p, (if c.1 then 1 else 0, c.2)⟩
  | .fcvt d a o m => some ⟨d, [a], cvtFeat o, cvtOp o (x.mode m) (r a)⟩
  | .fsgn d a b o p => some ⟨d, [a, b], feat p, ((fmtOf p).sgnOp o (arg p a) (arg p b), 0)⟩
  | _ => none

/-- Packed lanes (06 R150 to R155): lane by lane, each lane's value and flags from the lanes of wa, wb and wd. -/
def packedForm (r : Reg → Word) (x : Ctx) (i : Instr) : Option FloatForm :=
  let lanes := fun (d a b : Reg) (k : LaneKind) (f : Nat → Nat → Nat → Nat × Nat) =>
    eachLane (LaneKind.width k) (fun j => f (lane (LaneKind.width k) j (r a)) (lane (LaneKind.width k) j (r b)) (lane (LaneKind.width k) j (r d)))
  let int := fun (k : LaneKind) (u sat : Bool) (g : Int → Int → Int → Int) (p q t : Nat) =>
    (laneInt (LaneKind.width k) sat u (g (laneVal (LaneKind.width k) u p) (laneVal (LaneKind.width k) u q) (laneVal (LaneKind.width k) u t)), 0)
  match i with
  | .padd d a b u sat k => some ⟨d, [a, b], [2], lanes d a b k (fun p q t =>
      if k.isFloat then (LaneKind.fmt k).addOp (laneMode k x) p q else int k u sat (fun y z _ => y + z) p q t)⟩
  | .psub d a b u sat k => some ⟨d, [a, b], [2], lanes d a b k (fun p q t =>
      if k.isFloat then (LaneKind.fmt k).addOp (laneMode k x) p ((LaneKind.fmt k).flip q) else int k u sat (fun y z _ => y - z) p q t)⟩
  | .pmul d a b u sat k => some ⟨d, [a, b], [2], lanes d a b k (fun p q t =>
      if k.isFloat then (LaneKind.fmt k).mulOp (laneMode k x) p q else int k u sat (fun y z _ => y * z) p q t)⟩
  | .pfma d a b u sat k => some ⟨d, [a, b, d], [2], lanes d a b k (fun p q t =>
      if k.isFloat then (LaneKind.fmt k).fmaOp (laneMode k x) p q t else int k u sat (fun y z t => y * z + t) p q t)⟩
  | .pmin d a b u k => some ⟨d, [a, b], [2], lanes d a b k (fun p q t =>
      if k.isFloat then (LaneKind.fmt k).minMax false p q else int k u false (fun y z _ => min y z) p q t)⟩
  | .pmax d a b u k => some ⟨d, [a, b], [2], lanes d a b k (fun p q t =>
      if k.isFloat then (LaneKind.fmt k).minMax true p q else int k u false (fun y z _ => max y z) p q t)⟩
  | .pcmp d a b q k => some ⟨d, [a, b], [2], lanes d a b k (fun p s _ =>
      ((if (laneCmp q k p s).1 then 2 ^ LaneKind.width k - 1 else 0), (laneCmp q k p s).2))⟩
  | .pdot d a b u k => some ⟨d, [a, b, d], [2],
      if k.isFloat then dotFloat (LaneKind.fmt k) (LaneKind.width k) x.rm ((r d).toNat % 2 ^ 32) (r a) (r b)
      else (dotInt (LaneKind.width k) u (r d) (r a) (r b), 0)⟩
  | .pcvt d a b m => some ⟨d, [a, b], [2], pcvtOp m (r a) (r b)⟩
  | _ => none

/-- Special-function instructions (06 R147, R148): function, destination, operands, mode, precision. -/
def sfuForm (r : Reg → Word) (x : Ctx) (i : Instr) : Option (SfuFn × Reg × List Reg × Nat × Prec × Word × Word) :=
  match i with
  | .fdiv d a b m p => some (.div, d, [a, b], x.mode m, p, r a, r b)
  | .fsqrt d a m p => some (.sqrt, d, [a], x.mode m, p, r a, 0)
  | .frcp d a m p => some (.rcp, d, [a], x.mode m, p, r a, 0)
  | .frsq d a m p => some (.rsq, d, [a], x.mode m, p, r a, 0)
  | .fexp2 d a m p => some (.exp2, d, [a], x.mode m, p, r a, 0)
  | .flog2 d a m p => some (.log2, d, [a], x.mode m, p, r a, 0)
  | _ => none

/-- A context's instruction done, its reply under way (01 R9). -/
def State.replyTo (s : State) (c : Nat) (x : Ctx) : Host.Outcome State Fault Refusal := .next (s.past c x .reply)

/-- A value for the destination, the reply under way. -/
def State.answers (s : State) (c : Nat) (x : Ctx) (d : Reg) (v : Word) : Host.Outcome State Fault Refusal := (s.setReg x d v).replyTo c x

/-- The instruction takes a fault. -/
def State.faults (s : State) (c : Nat) (x : Ctx) (f : FaultInfo) (w : Word32) : Host.Outcome State Fault Refusal := .next (takeTrap s c x f w)

/-- A tile buffer of this device stands where an address names it, and its header can be read (07 R161). -/
def State.buffer (s : State) (c : Nat) (x : Ctx) (own : Bool) (va : Word) (s1 : State) (k off : Nat) : Prop :=
  va.toNat % 256 = 0 ∧
  (∃ pa, s.xlate (s.whoOf c x) Need.put (tileWant own c) va = (s1, .ok pa) ∧ s1.place pa = .pad k off) ∧
  ∀ g ∈ s1.bad, ¬ (padAddr k off / 8 ≤ g ∧ g ≤ (padAddr k off + 31) / 8)

/-- The crew and the rank of a context's cluster. -/
def State.spanOf (s : State) (c : Nat) : Nat := ((s.crew? (clusterOf c)).map (·.1)).getD 0

/-- No register that an op reads holds an uncorrectable error (13 R317). -/
def State.intact (s : State) (k : Nat) (u : MxUnit) (i : Instr) : Prop := (s.mx k u).regFault i = none

/-- An op of a unit's bundle takes its issue step: its bundle's checks have passed, or it stands alone, and reads no register with an
uncorrectable error (10 R226; 13 R317). -/
def State.performs (s : State) (k : Nat) (u : MxUnit) (head : Nat) (i : Instr) : Prop :=
  i.WellFormed ∧ (s.actor = .mx k u .perform head ∨ (s.actor = .mx k u .alone head ∧ s.intact k u i))

/-- Every vector register of a unit has its 128 lanes (01 R34). -/
def Mx.full (m : Mx) : Prop := ∀ r : Reg, (m.vlanes r).length = 128

/-- A lane of a vector register. -/
def Mx.ln (m : Mx) (r : Reg) (n : Nat) : Word32 := (m.vlanes r).getD n 0

/-- A lane op: register, predicate, latency in bundles, and the value of lane n. -/
structure LaneForm where
  v : Reg
  p : Option (BitVec 3)
  lat : Nat
  f : Nat → Word32

/-- The lane ops of 10 R245 to R247 and R250. -/
def laneForm (m : Mx) (i : Instr) : Option LaneForm :=
  let num := fun (n : Nat) => BitVec.ofNat 32 n
  let two := fun (v a b : Reg) (k : VKind) (p : Option (BitVec 3)) (l : Nat) (fs : Nat → Nat → Nat × Nat) (fw : Word32 → Word32 → Word32) =>
    some (LaneForm.mk v p l (fun n => match k with
      | .s => num (fs (m.ln a n).toNat (m.ln b n).toNat).1
      | .w => fw (m.ln a n) (m.ln b n)))
  let one := fun (v a : Reg) (p : Option (BitVec 3)) (f : Nat → Nat × Nat) => some (LaneForm.mk v p 8 (fun n => num (f (m.ln a n).toNat).1))
  match i with
  | .vadd v a b k p => two v a b k p 2 (fp32.addOp 0) (· + ·)
  | .vsub v a b k p => two v a b k p 2 (fun x y => fp32.addOp 0 x (fp32.flip y)) (· - ·)
  | .vmul v a b k p => two v a b k p 3 (fp32.mulOp 0) (· * ·)
  | .vmax v a b k p => two v a b k p 2 (fp32.minMax true) (fun x y => if x.toInt ≤ y.toInt then y else x)
  | .vmin v a b k p => two v a b k p 2 (fp32.minMax false) (fun x y => if x.toInt ≤ y.toInt then x else y)
  | .vfma v a b c p => some ⟨v, p, 4, fun n => num (fp32.fmaOp 0 (m.ln a n).toNat (m.ln b n).toNat (m.ln c n).toNat).1⟩
  | .vabs v a k p => some ⟨v, p, 2, fun n => absLane k (m.ln a n)⟩
  | .vsel v a b q p => some ⟨v, p, 2, fun n => if (m.preg q).getLsbD n then m.ln a n else m.ln b n⟩
  | .vcvt v a f p => some ⟨v, p, 4, fun n => cvtLane f (m.ln a n)⟩
  | .vbcast v sa p => some ⟨v, p, 2, fun _ => m.sreg sa⟩
  | .xexp2 v a p => one v a p (fp32.exp2Op 0)
  | .xlog2 v a p => one v a p (fp32.log2Op 0)
  | .xrcp v a p => one v a p (fp32.rcpOp 0)
  | .xrsq v a p => one v a p (fp32.rsqOp 0)
  | .xtanh v a p => some ⟨v, p, 8, fun n => num (tanh32 (m.ln a n).toNat)⟩
  | .xsig v a p => some ⟨v, p, 8, fun n => num (sigmoid32 (m.ln a n).toNat)⟩
  | _ => none

/-- The scalar ops of 10 R251 and R255: register and value; HDRF of a register without a lost mark (R233). -/
def scalarForm (m : Mx) (i : Instr) : Option (Reg × Word32) :=
  match i with
  | .sadd d a b => some (d, m.sreg a + m.sreg b)
  | .ssub d a b => some (d, m.sreg a - m.sreg b)
  | .sand d a b => some (d, m.sreg a &&& m.sreg b)
  | .sshl d a b =>
    let n := ((m.sreg b).setWidth 8).toInt
    some (d, if 0 ≤ n then BitVec.ofNat 32 ((m.sreg a).toNat * 2 ^ n.toNat) else BitVec.ofNat 32 ((m.sreg a).toNat / 2 ^ (-n).toNat))
  | .saddi d a k => some (d, m.sreg a + k)
  | .sldi d k => some (d, k)
  | .hdrf d t f => if m.isLost t then none else some (d, BitVec.ofNat 32 (hdrField f (m.tileHdr t).1 (m.tileHdr t).2))
  | _ => none

/-- A reduction of 10 R248: register, source, predicate, combination, identity. -/
def reduceForm (i : Instr) : Option (Reg × Reg × Option (BitVec 3) × (Word32 → Word32 → Word32) × Word32) :=
  match i with
  | .vreds d a k p => some (d, a, p, (match k with | .s => fun x y => BitVec.ofNat 32 (fp32.addOp 0 x.toNat y.toNat).1 | .w => (· + ·)), 0)
  | .vredm d a f p => some (d, a, p, redmLane f)
  | _ => none

end Sys2Proof.Machine
end

