-- ==== Sys2Proof/Certificates/Slice0/Obligations.lean ====
section
/-! DEFINITION. The statements for the provers: what the rules of the spec say that the instructions and the machine do. -/

open Sys2Proof Sys2Proof.Machine

/-- 05 R104: each register form of the table writes its value to wd and goes on. -/
def Obligations.RegisterArithmeticResults : Prop :=
  ∀ (i : Instr) (f : WordForm) (s : State) (c : Nat) (w : Word32) (x : Ctx), aluForm (s.reg x) i = some f →
    s.acts c w x → s.lets c x i [] false f.srcs → exec i s = .next (s.gives c x f.d f.v)

/-- 05 R105: SEL is function 0x1A with its third source in the modifier; it yields Ws(a) where Ws(c) is not 0, else Ws(b), all read before wd is
written; with w0 as wc it always yields Ws(b). -/
def Obligations.SelectReadsThreeSources : Prop :=
  ∀ (d a b k : Reg), reads (aluWord d a b k 0x1A) (.sel d a b k) ∧
    ∀ (s : State) (c : Nat) (w : Word32) (x : Ctx), s.acts c w x → s.lets c x (.sel d a b k) [] false [a, b, k] →
      exec (.sel d a b k) s = .next (s.gives c x d (if s.reg x k ≠ 0 then s.reg x a else s.reg x b)) ∧
      (k = 0 → exec (.sel d a b k) s = .next (s.gives c x d (s.reg x b)))

/-- 05 R106: DIV, DIVU, REM and REMU, their function codes and the pseudocode, with division by zero and the overflowing quotient. -/
def Obligations.DivisionAndRemainder : Prop :=
  (∀ d a b : Reg, reads (aluWord d a b 0 0x06) (.div d a b) ∧ reads (aluWord d a b 0 0x07) (.divu d a b) ∧
    reads (aluWord d a b 0 0x08) (.rem d a b) ∧ reads (aluWord d a b 0 0x09) (.remu d a b)) ∧
  ∀ (i : Instr) (f : WordForm) (s : State) (c : Nat) (w : Word32) (x : Ctx), divForm (s.reg x) i = some f →
    s.acts c w x → s.lets c x i [] false f.srcs → exec i s = .next (s.gives c x f.d f.v)

/-- 05 R107: shifts and rotates of either form; bits [63:6] of Ws(b) are ignored; the immediate forms in the layout of SHIFTI. -/
def Obligations.ShiftsAndRotates : Prop :=
  (∀ (d a b : Reg) (n : BitVec 6), reads (aluWord d a b 0 0x0D) (.shl d a b) ∧ reads (aluWord d a b 0 0x0E) (.shr d a b) ∧
    reads (aluWord d a b 0 0x0F) (.sra d a b) ∧ reads (aluWord d a b 0 0x10) (.rot d a b) ∧
    reads (immWord 0x08 d a ((0 : BitVec 2) ++ (0 : BitVec 8) ++ n)) (.shli d a n) ∧
    reads (immWord 0x08 d a ((1 : BitVec 2) ++ (0 : BitVec 8) ++ n)) (.shri d a n) ∧
    reads (immWord 0x08 d a ((2 : BitVec 2) ++ (0 : BitVec 8) ++ n)) (.srai d a n) ∧
    reads (immWord 0x08 d a ((3 : BitVec 2) ++ (0 : BitVec 8) ++ n)) (.roti d a n)) ∧
  (∀ (d a : Reg) (p : BitVec 2) (z : BitVec 8) (n : BitVec 6), z ≠ 0 → ∀ i, ¬ reads (immWord 0x08 d a (p ++ z ++ n)) i) ∧
  ∀ (i : Instr) (f : WordForm) (s : State) (c : Nat) (w : Word32) (x : Ctx), shiftForm (s.reg x) i = some f →
    s.acts c w x → s.lets c x i [] false f.srcs → exec i s = .next (s.gives c x f.d f.v)

/-- 05 R108, R110, R111: the immediate forms, LDHI and ADDPC, by their majors; the a field of LDHI and ADDPC must be zero. -/
def Obligations.ImmediateForms : Prop :=
  (∀ (d a : Reg) (k : BitVec 16), reads (immWord 0x01 d a k) (.addi d a k) ∧ reads (immWord 0x02 d a k) (.andi d a k) ∧
    reads (immWord 0x03 d a k) (.ori d a k) ∧ reads (immWord 0x04 d a k) (.xori d a k) ∧ reads (immWord 0x05 d a k) (.slti d a k) ∧
    reads (immWord 0x06 d 0 k) (.ldhi d k) ∧ reads (immWord 0x07 d 0 k) (.addpc d k) ∧
    (a ≠ 0 → ∀ i, ¬ reads (immWord 0x06 d a k) i ∧ ¬ reads (immWord 0x07 d a k) i)) ∧
  ∀ (i : Instr) (f : WordForm) (s : State) (c : Nat) (w : Word32) (x : Ctx), immForm (s.reg x) x.pc i = some f →
    s.acts c w x → s.lets c x i [] false f.srcs → exec i s = .next (s.gives c x f.d f.v)

/-- 05 R109: BFX and BFI with op in [15], width - 1 in [11:6] and lo in [5:0], every combination defined and cut off at bit 63. -/
def Obligations.BitFieldInstructions : Prop :=
  (∀ (d a : Reg) (w l : BitVec 6), reads (immWord 0x09 d a ((0 : BitVec 1) ++ (0 : BitVec 3) ++ w ++ l)) (.bfx d a w l) ∧
    reads (immWord 0x09 d a ((1 : BitVec 1) ++ (0 : BitVec 3) ++ w ++ l)) (.bfi d a w l)) ∧
  ∀ (i : Instr) (f : WordForm) (s : State) (c : Nat) (w : Word32) (x : Ctx), bitfForm (s.reg x) i = some f →
    s.acts c w x → s.lets c x i [] false f.srcs → exec i s = .next (s.gives c x f.d f.v)

/-- 05 R112, R113, R114: CRNG is function 0x1C and HASH function 0x1B; both run the loops over Mix and its constants. -/
def Obligations.HashAndCounterRandom : Prop :=
  (∀ d a b : Reg, reads (aluWord d a b 0 0x1C) (.crng d a b) ∧ reads (aluWord d a b 0 0x1B) (.hash d a b)) ∧
  ∀ (i : Instr) (f : WordForm) (s : State) (c : Nat) (w : Word32) (x : Ctx), mixForm (s.reg x) i = some f →
    s.acts c w x → s.lets c x i [] false f.srcs → exec i s = .next (s.gives c x f.d f.v)

/-- 05 R103, 01 R11: the frame of the register forms of chapter 05. Where one goes on without a fault, nothing has changed but the eight bytes of wd
in the workspace and the context's PC: no other byte of memory, no other context, none of the context's special registers, no other part of the
machine; with w0 as wd no byte changes at all. An uncorrectable error in wd's granule ends with the write of all its bytes (13 R317), and no other
error comes or goes. -/
def Obligations.RegisterFormFrame : Prop :=
  ∀ (i : Instr) (f : WordForm) (s t : State) (c : Nat) (w : Word32) (x : Ctx), wordForm (s.reg x) x.pc i = some f →
    memWf s.mem = true → s.acts c w x → s.lets c x i [] false f.srcs → exec i s = .next t →
      (∀ a, ¬ regBytes x f.d a → memByte t.mem a = memByte s.mem a) ∧ (∀ g, g ∈ t.bad ↔ g ∈ s.bad ∧ ¬ regGranule x f.d g) ∧
      (∀ k, k ≠ c → t.ctx? k = s.ctx? k) ∧
      t.ctx? c = some { x with pc := x.pc + 4, st := .idle, got := [], mark := none } ∧
      { t with mem := s.mem, bad := s.bad, ctxs := s.ctxs } = s

/-- 05 R119: the six branches by their majors; a taken branch sets the next PC to PC + sext16(off16) x 4, another to PC + 4. -/
def Obligations.BranchesGoWhereTheyShould : Prop :=
  (∀ (a b : Reg) (o : BitVec 16), reads (immWord 0x10 a b o) (.beq a b o) ∧ reads (immWord 0x11 a b o) (.bne a b o) ∧
    reads (immWord 0x12 a b o) (.blt a b o) ∧ reads (immWord 0x13 a b o) (.bge a b o) ∧ reads (immWord 0x14 a b o) (.bltu a b o) ∧
    reads (immWord 0x15 a b o) (.bgeu a b o)) ∧
  ∀ (i : Instr) (a b : Reg) (o : BitVec 16) (taken : Word → Word → Prop) (s : State) (c : Nat) (w : Word32) (x : Ctx),
    branchForm i = some (a, b, o, taken) → s.acts c w x → s.lets c x i [] false [a, b] →
      (taken (s.reg x a) (s.reg x b) → exec i s = .next (s.goes c (x.pc + o.signExtend 64 * 4))) ∧
      (¬ taken (s.reg x a) (s.reg x b) → exec i s = .next (s.goes c (x.pc + 4)))

/-- 05 R120, R121: JMP, CALL and JR. CALL writes w31 := PC + 4; JR reads Ws(a) before it writes Ws(d), and clears bits [1:0] of its target. -/
def Obligations.JumpsCallsAndReturns : Prop :=
  (∀ o : BitVec 26, reads ((0x16 : BitVec 6) ++ o) (.jmp o) ∧ reads ((0x17 : BitVec 6) ++ o) (.call o)) ∧
  (∀ d a b : Reg, reads (aluWord d a 0 0 0x1F) (.jr d a) ∧ (b ≠ 0 → ∀ i, ¬ reads (aluWord d a b 0 0x1F) i)) ∧
  ∀ (s : State) (c : Nat) (w : Word32) (x : Ctx), s.acts c w x →
    (∀ o, s.lets c x (.jmp o) [] false [] → exec (.jmp o) s = .next (s.goes c (x.pc + o.signExtend 64 * 4))) ∧
    (∀ o, s.lets c x (.call o) [] false [] →
      exec (.call o) s = .next ((s.setReg x 31 (x.pc + 4)).goes c (x.pc + o.signExtend 64 * 4))) ∧
    (∀ d a, s.lets c x (.jr d a) [] false [a] →
      exec (.jr d a) s = .next ((s.setReg x d (x.pc + 4)).goes c (s.reg x a &&& ~~~3)))

/-- 05 R118: the three forms of PEER: the aperture address where rank and offset are in range, and else BOUNDS naming the source that failed. Where
rank and offset both fail, that the rank's register is named is the model's reading (entry 68). -/
def Obligations.PeerAddresses : Prop :=
  (∀ d a b : Reg, reads (aluWord d a b 0 0x1E) (.peer d a b) ∧ reads (aluWord d a b 1 0x1E) (.peerWrap d a b) ∧
    reads (aluWord d a 0 2 0x1E) (.peerLoc d a)) ∧
  (∀ (d a b m : Reg) (i : Instr), 3 ≤ m.toNat → ¬ reads (aluWord d a b m 0x1E) i) ∧
  (∀ (d a b : Reg) (i : Instr), b ≠ 0 → ¬ reads (aluWord d a b 2 0x1E) i) ∧
  ∀ (s : State) (c : Nat) (w : Word32) (x : Ctx) (d a b : Reg), s.acts c w x →
    let n := s.spansizeOf c
    let va := s.reg x a
    let vb := s.reg x b
    let addr := fun (rk off : Nat) => word (0xFF000000000000 + rk * 0x800000 + off)
    (s.lets c x (.peer d a b) [] false [a, b] →
      exec (.peer d a b) s = .next (if n ≤ va.toNat then takeTrap s c x (flt .bounds va) w
        else if 0x800000 ≤ vb.toNat then takeTrap s c x (flt .bounds vb) w
        else s.gives c x d (addr va.toNat vb.toNat))) ∧
    (s.lets c x (.peerWrap d a b) [] false [a, b] → 0 < n →
      exec (.peerWrap d a b) s = .next (if 0x800000 ≤ vb.toNat then takeTrap s c x (flt .bounds vb) w
        else s.gives c x d (addr (((s.rankOf c : Int) + va.toInt) % (n : Int)).toNat vb.toNat))) ∧
    (s.lets c x (.peerLoc d a) [] false [a] →
      exec (.peerLoc d a) s = .next (
        if va.toNat / 2 ^ 48 ≠ 0 ∨ n ≤ va.toNat / 2 ^ 32 % 2 ^ 16 ∨ 0x800000 ≤ va.toNat % 2 ^ 32 then takeTrap s c x (flt .bounds va) w
        else s.gives c x d (addr (va.toNat / 2 ^ 32 % 2 ^ 16) (va.toNat % 2 ^ 32))))

/-- 05 R115, R116: LOC with an index below 2^16 and a descriptor that can be read writes rank and offset of the coordinate, by the formula of R116;
the bytes are those of the descriptor at DTB + 64 x index. It faults BOUNDS with cause 1 for a larger index, 2 for a descriptor that may not be used,
3 for a coordinate outside its extent, 4 for more crews than the span has, and 5 for an offset past the scratchpad. 05 R123: SWAPWS to a workspace of
its own core, which is its home where it is a pool workspace and which no other context holds, moves the context there with its continuation word, and
writes the old WP to wd in the new workspace; any other target of another core, or no workspace address at all, or a pool workspace that is not its
home faults XLATE_PROT naming the target (DETAIL 6 is the model's: entry 43), and one that is live in another context faults WSLIVE. That LOC reads
its descriptor and writes wd in its own step, with its reply under way, is the model's choice (entry 11). -/
def Obligations.LocateAndSwapWorkspace : Prop :=
  ∀ (s : State) (c : Nat) (w : Word32) (x : Ctx) (d a b : Reg), s.acts c w x →
    (s.lets c x (.loc d a b) [] false [a, b] →
      let va := (x.dtb &&& ~~~(63 : Word)) + s.reg x b * 64
      (2 ^ 16 ≤ (s.reg x b).toNat → exec (.loc d a b) s = .next (takeTrap s c x ⟨17, s.reg x b, 1, 0, false, 0⟩ w)) ∧
      ∀ (s1 : State) (bs : List Byte), (s.reg x b).toNat < 2 ^ 16 → s.readBytes c x va 64 = .ok (s1, bs) →
        let dw := fun (i : Nat) => recWord bs i
        let n := field (dw 0) 2 0
        let esz := field (dw 0) 10 8
        let cd := fun (i : Nat) => (s.reg x a).toNat / 2 ^ (16 * i) % 2 ^ 16
        let E := fun (i : Nat) => field (dw (i + 1)) 16 0
        let B := fun (i : Nat) => field (dw (i + 1)) 33 17
        let P := fun (i : Nat) => field (dw (i + 1)) 42 34
        let LX := fun (i : Nat) => (E i + B i * P i - 1) / (B i * P i) * B i
        let below := fun (f : Nat → Nat) (i : Nat) => (List.range i).foldl (fun y j => y * f j) 1
        let rank := ((List.range n).map (fun i => cd i / B i % P i * below P i)).sum
        let off := ((List.range n).map (fun i => (cd i / (B i * P i) * B i + cd i % B i) * below LX i)).sum
        let o := field (dw 0) 38 16 + off * 2 ^ esz
        let usable := (dw 0).getLsbD 63 = true ∧ 1 ≤ n ∧ n ≤ 4 ∧ esz ≤ 4 ∧ field (dw 0) 7 3 = 0 ∧ field (dw 0) 15 11 = 0 ∧
          field (dw 0) 62 39 = 0 ∧ (∀ i, i < n → field (dw (i + 1)) 63 43 = 0) ∧ dw 5 = 0 ∧ dw 6 = 0 ∧ dw 7 = 0
        let dimOk := fun (i : Nat) => 1 ≤ E i ∧ E i ≤ 65536 ∧ B i ≠ 0 ∧ 1 ≤ P i ∧ P i ≤ 256
        let stops := fun (cause : Nat) => exec (.loc d a b) s = .next (takeTrap s1 c x ⟨17, va, cause, 0, false, 0⟩ w)
        (¬ usable → stops 2) ∧
        (usable → (∀ k, k < n → (∀ j, j < k → dimOk j ∧ cd j < E j) → (¬ dimOk k → stops 2) ∧ (dimOk k → E k ≤ cd k → stops 3)) ∧
          ((∀ j, j < n → dimOk j ∧ cd j < E j) →
            ((∃ i, n ≤ i ∧ i < 4 ∧ cd i ≠ 0) → stops 3) ∧
            ((∀ i, n ≤ i → i < 4 → cd i = 0) →
              (s.spansizeOf c < below P n → stops 4) ∧
              (below P n ≤ s.spansizeOf c → 0x800000 < o + 2 ^ esz → stops 5) ∧
              (below P n ≤ s.spansizeOf c → o + 2 ^ esz ≤ 0x800000 →
                exec (.loc d a b) s = .next ((s1.setReg x d (word (rank * 2 ^ 32 + o))).past c x .reply)))))) ∧
    (s.lets c x (.swapws d a) [] false [a] → ownWorkspace (coreOf c) (s.reg x a) = true →
      (poolIndex (coreOf c) (s.reg x a) = none ∨ s.reg x a = x.home) → (s.reg x a = x.wp ∨ s.liveIn (s.reg x a).toNat = none) →
        exec (.swapws d a) s = .next (
          if s.reg x a = x.wp then s.gives c x d x.wp
          else
            let y := { x with wp := s.reg x a }
            (((s.poke64 (s.reg x a).toNat (s.contWord x)).setCtx c y).setReg y d x.wp).past c y .idle)) ∧
    (s.lets c x (.swapws d a) [] false [a] →
      let t := s.reg x a
      (ownWorkspace (coreOf c) t = false ∨ (∃ k, poolIndex (coreOf c) t = some k ∧ t ≠ x.home) →
        exec (.swapws d a) s = s.faults c x (flt .xlateProt t 6) w) ∧
      (ownWorkspace (coreOf c) t = true → (poolIndex (coreOf c) t = none ∨ t = x.home) → t ≠ x.wp →
        (∃ n, s.liveIn t.toNat = some n) → exec (.swapws d a) s = s.faults c x (flt .wsLive t) w)) ∧
    (∀ t : Word, ownWorkspace (coreOf c) t = true ↔ t.toNat % 256 = 0 ∧ Config.storeBase ≤ t.toNat ∧
      t.toNat < Config.storeBase + Config.cores * Config.storeSize ∧ (t.toNat - Config.storeBase) / Config.storeSize = coreOf c)

/-- 01 R11: w0 reads as zero, and a write to it is discarded; a register written reads as written, and every other register of the workspace reads as
before. -/
def Obligations.RegisterReadsAndWrites : Prop :=
  ∀ (s : State) (x : Ctx) (d r : Reg) (v : Word), memWf s.mem = true →
    s.reg x 0 = 0 ∧ s.setReg x 0 v = s ∧ (d ≠ 0 → (s.setReg x d v).reg x d = v) ∧ (r ≠ d → (s.setReg x d v).reg x r = s.reg x r)

/-- 06 R126, R129 to R133: every load, plain, ordered or of a bit field, whose bytes this device or its caches can give now writes what the bytes say
to its register, acquires at its scope, and has its reply under way. A load of 8 bytes from a control register gives the register's value. A read of
this device's HBM gives the bytes of the core's L1D line where the core has the line and the load may hit it, and else those of memory once the core's
own earlier store-path entries for the line have performed (11 R260, R261), where no home slice holds the line. That a load reads, and writes its
register, in its own step, before its reply, is the model's choice (entry 11). -/
def Obligations.LoadsComplete : Prop :=
  (∀ (s : State) (core : Nat) (me : Option Waiter) (fresh : Bool) (pa n : Nat), s.place pa = .hbm → 0 < n → localOf pa % 64 + n ≤ 64 →
    let line := localOf pa / 64
    let kept := if fresh then none else (s.core core).l1d.find? line
    let own := s.performed ((s.core core).path.filter (fun e => e.pa / 64 == pa / 64 && s.before core me e))
    (∀ v, kept = some v → s.loadPart core me fresh pa n = (s, .bytes (lineBytes v (localOf pa % 64) n))) ∧
    (kept = none → s.registered line = false → (∀ q ∈ s.waits, q.2 ≠ line) → line ∉ s.io.hostHolds →
      ∃ t, s.loadPart core me fresh pa n = (t, .bytes (memRead own.mem (localOf pa) n)) ∧ t.mem = own.mem)) ∧
  ∀ (i : Instr) (f : LoadForm) (s s1 : State) (c : Nat) (w : Word32) (x : Ctx) (ps : List (Nat × Nat)), loadForm (s.reg x) i = some f →
    s.acts c w x → s.lets c x i [] false f.srcs → s.checkAccess (s.whoOf c x) f.need anyPlace f.va f.n = (s1, .ok ps) →
      (∀ (s2 : State) (bs : List Byte), (∀ p ∈ ps, s1.place p.1 ≠ .mmio) →
        s1.loadParts (coreOf c) (some (.ctx c)) (wideScope f.acq) x.got ps = (s2, .bytes bs) →
          exec i s = .next (((s2.deliver c x f.d f.what bs).acquire (coreOf c) f.acq).past c x .reply)) ∧
      (∀ pa, ps = [(pa, f.n)] → s1.place pa = .mmio →
          exec i s = .next (((s1.deliver c x f.d f.what (leBytes 8 (s1.regRead (.context c) (localOf pa)).toNat)).acquire
            (coreOf c) f.acq).past c x .reply))

/-- 06 R130 to R133, 11 R258: a load within one scratchpad window returns the bytes that stand there, sign-extended or zero-extended, as a pair of
registers, or as a bit field, and moves no byte of memory but its destination's: translation and the TLBs change none. It reads in its own step,
before its reply (the model's choice: entry 11). -/
def Obligations.ScratchpadLoadsReadTheBank : Prop :=
  ∀ (i : Instr) (f : LoadForm) (s s1 : State) (c : Nat) (w : Word32) (x : Ctx) (pa k off : Nat), loadForm (s.reg x) i = some f →
    memWf s.mem = true → s.acts c w x → s.lets c x i [] false f.srcs →
    s.checkAccess (s.whoOf c x) f.need anyPlace f.va f.n = (s1, .ok [(pa, f.n)]) → s1.place pa = .pad k off →
      let v := leNat (memRead s.mem (localOf pa) f.n)
      ∃ t, exec i s = .next t ∧
        t = ((s1.deliver c x f.d f.what (memRead s.mem (localOf pa) f.n)).acquire (coreOf c) f.acq).past c x .reply ∧
        (∀ sg, f.what = .load sg → f.d ≠ 0 →
          t.reg x f.d = if sg then (BitVec.ofNat (8 * f.n) v).signExtend 64 else BitVec.ofNat 64 v) ∧
        (f.what = .pair → (f.d ≠ 0 → t.reg x f.d = BitVec.ofNat 64 v) ∧ t.reg x (f.d + 1) = BitVec.ofNat 64 (v / 2 ^ 64)) ∧
        (∀ sh n sg, f.what = .bits sh n sg → f.d ≠ 0 →
          t.reg x f.d = if sg then (BitVec.ofNat n (v / 2 ^ sh)).signExtend 64 else BitVec.ofNat 64 (v / 2 ^ sh % 2 ^ n)) ∧
        ∀ a, ¬ regBytes x f.d a → ¬ (f.what = .pair ∧ regBytes x (f.d + 1) a) → memByte t.mem a = memByte s.mem a

/-- 06 R126, R129 to R132; 11 R263; 13 R306: every store whose release is done, after which it translates, and whose parts no other device must answer
is made: at a bank, at a core store, in the store path, or at a control register that accepts it. Where a part lies in a scratchpad of another device,
that device answers it first; where the store has another part too, no byte of this device's memory is written and no entry made before every such
device has tested its part and agreed to take it; then all parts are made in one step, and the store is complete when those devices have answered (the
model's choice: entry 63). -/
def Obligations.StoresComplete : Prop :=
  ∀ (i : Instr) (f : StoreForm) (s s1 s2 : State) (c : Nat) (w : Word32) (x : Ctx) (ps : List (Nat × Nat)), storeForm (s.reg x) i = some f →
    s.acts c w x → s.lets c x i [] false f.srcs → s.release c f.rel = (s1, true) →
    s1.checkAccess (s1.whoOf c x) f.need anyPlace f.va f.bytes.length = (s2, .ok ps) →
      let parts := splitStore ps f.bytes
      let who := s2.whoOf c x
      let asked := s2.probe x f.va 1 (parts.map (fun p => (p.1, p.2.len)))
      let away := parts.filter (fun p => s2.awayPad p.1)
      let made := s2.commit f.va 1 parts c x
      ((∀ p ∈ ps, s2.place p.1 ≠ .mmio) →
        (away = [] → x.granted = [] → exec i s = .next ((s2.storeParts who (coreOf c) parts).1.past c x .idle)) ∧
        (1 < ps.length → asked = none → exec i s = .next (made.1.past c x (made.2.getD .idle)) ∧
          (∀ p l, away = p :: l → made.2 = some (.remote ⟨0, f.va, 1, p.1, 0, [], [], .written (l.map (·.1)), false⟩)) ∧
          (x.granted = [] → made.1 = (s2.storeParts who (coreOf c) parts).1) ∧
          (x.granted ≠ [] → x.granted = away.map (fun p => (p.1, p.2.len)) →
            made.1 = (((s2.modCtx c (fun y => { y with granted := [] })).dropWaits c).storeParts who (coreOf c) parts).1)) ∧
        (away ≠ [] → (ps.length ≤ 1 ∨ asked.isSome = true) →
          ∃ (t : State) (st : CtxState), exec i s = .next (t.stays c w st) ∧ t.mem = s2.mem ∧ t.cores = s2.cores)) ∧
      (∀ pa s3, ps = [(pa, f.bytes.length)] → s2.place pa = .mmio →
        s2.regWrite (.context c) (localOf pa) f.va (word (leNat f.bytes)) = (s3, .ok ()) → exec i s = .next (s3.past c x .idle))

/-- 06 R130 to R132, 11 R258: a store to one scratchpad window, plain or with nothing in its core's store path to release, writes its bytes at the
bank, at the address that translation gives, and leaves every other byte of memory, every other context and every register of its own as they were. -/
def Obligations.ScratchpadStoresWriteTheBank : Prop :=
  ∀ (i : Instr) (f : StoreForm) (s s1 : State) (c : Nat) (w : Word32) (x : Ctx) (pa k off : Nat), storeForm (s.reg x) i = some f →
    memWf s.mem = true → s.acts c w x → s.lets c x i [] false f.srcs → (f.rel = none ∨ (s.core (coreOf c)).path = []) →
    s.checkAccess (s.whoOf c x) f.need anyPlace f.va f.bytes.length = (s1, .ok [(pa, f.bytes.length)]) → s1.place pa = .pad k off →
      ∃ t, exec i s = .next t ∧ t = (s1.poke (localOf pa) f.bytes).past c x .idle ∧
        memRead t.mem (localOf pa) f.bytes.length = f.bytes ∧
        (∀ a, (a < localOf pa ∨ localOf pa + f.bytes.length ≤ a) → memByte t.mem a = memByte s.mem a) ∧
        (∀ n, n ≠ c → t.ctx? n = s.ctx? n) ∧ t.ctx? c = some { x with pc := x.pc + 4, st := .idle, got := [], mark := none }

/-- 06 R126, R128; 11 R263: a load or a store whose check fails takes that fault, and every byte of memory and every context stands as before the
fault is taken; an ordered store has made its release first, and a fault of it changes nothing more. Where a lower line of the access lies away from
this device, that device is asked first, since the fault names the lowest line that fails (the way it is asked is the model's: entry 63). -/
def Obligations.MemoryFaultsArePrecise : Prop :=
  (∀ (i : Instr) (f : LoadForm) (s s1 : State) (c : Nat) (w : Word32) (x : Ctx) (e : FaultInfo), loadForm (s.reg x) i = some f →
    s.acts c w x → s.lets c x i [] false f.srcs → s.checkAccess (s.whoOf c x) f.need anyPlace f.va f.n = (s1, .fault e) →
      let lower := s.linesBefore (s.whoOf c x) f.need anyPlace 257 f.va f.n
      ((∀ p ∈ lower, s.away p.1 = false) → exec i s = .next (takeTrap s1 c x e w)) ∧ s1.mem = s.mem ∧ s1.ctxs = s.ctxs ∧
      (∀ s2 bs, (∃ p ∈ lower, s.away p.1 = true) → s1.gather c x f.va lower = .ok (s2, bs) → exec i s = .next (takeTrap s2 c x e w))) ∧
  (∀ (i : Instr) (f : StoreForm) (s s1 s2 : State) (c : Nat) (w : Word32) (x : Ctx) (e : FaultInfo), storeForm (s.reg x) i = some f →
    s.acts c w x → s.lets c x i [] false f.srcs → s.release c f.rel = (s1, true) →
    s1.checkAccess (s1.whoOf c x) f.need anyPlace f.va f.bytes.length = (s2, .fault e) →
      (s2.probe x f.va 1 (s1.linesBefore (s1.whoOf c x) f.need anyPlace 257 f.va f.bytes.length) = none → exec i s = .next (takeTrap s2 c x e w)) ∧
      s2.mem = s1.mem ∧ s2.ctxs = s1.ctxs ∧ (f.rel = none → s1 = s))

/-- 06 R133, R134: SBIT of a field of w bits at bit address BA writes, for each doubleword it touches, the bits of the field and no other: within one
scratchpad window the field's bits of Mem(EA, span) are Ws(d)[w-1:0] after it, and every other bit, every other byte of memory and every other context
are as before; the bytes that any bit-field write leaves hold the new bits under its mask and the old ones elsewhere. -/
def Obligations.BitFieldStores : Prop :=
  (∀ (s s1 : State) (c : Nat) (w : Word32) (x : Ctx) (d a b : Reg) (wm : BitVec 3) (ps : List (Nat × Nat)),
    let ba := ((s.reg x a).toNat * 8 + (s.reg x b).toNat) % 2 ^ 67
    let sh := ba % 8
    let n := wm.toNat + 1
    let span := (sh + n + 7) / 8
    s.acts c w x → s.lets c x (.sbit d a b wm) [] false [d, a, b] →
    s.checkAccess (s.whoOf c x) Need.store anyPlace (word (ba / 8)) span = (s1, .ok ps) →
    let parts := splitBits (cutDwords ps) (leBytes span ((2 ^ n - 1) * 2 ^ sh)) (leBytes span ((s.reg x d).toNat % 2 ^ n * 2 ^ sh))
    ((∀ p ∈ parts, s1.awayPad p.1 = false) → x.granted = [] →
      exec (.sbit d a b wm) s = .next ((s1.storeParts (s1.whoOf c x) (coreOf c) parts).1.past c x .idle)) ∧
    (∀ pa k off, ps = [(pa, span)] → s1.place pa = .pad k off → memWf s.mem = true → x.granted = [] →
      ∃ t, exec (.sbit d a b wm) s = .next t ∧
        (∀ j, j < 8 * span → (leNat (memRead t.mem (localOf pa) span)).testBit j =
          if sh ≤ j ∧ j < sh + n then (s.reg x d).getLsbD (j - sh) else (leNat (memRead s.mem (localOf pa) span)).testBit j) ∧
        (∀ m, (m < localOf pa ∨ localOf pa + span ≤ m) → memByte t.mem m = memByte s.mem m) ∧
        (∀ m, m ≠ c → t.ctx? m = s.ctx? m) ∧ t.ctx? c = some { x with pc := x.pc + 4, st := .idle, got := [], mark := none })) ∧
  ∀ (m d o : List Byte) (i : Nat) (j : Nat), m.length = o.length → d.length = o.length → i < o.length →
    ((PathOp.bits m d).apply o).length = o.length ∧
    (((PathOp.bits m d).apply o).getD i 0).getLsbD j = (if (m.getD i 0).getLsbD j then (d.getD i 0).getLsbD j else (o.getD i 0).getLsbD j)

/-- 06 R128, R136, R137; 11 R261, R263, R264; 13 R306: an aligned atomic at memory of this device releases, then finds its location, reads it, writes
the function's value where it differs or where the function is SWP or CAS, returns the old value sign-extended, and acquires; the core's L1D loses its
line at issue, before the release and whatever holds the step, and keeps no line that it touched; one that is not aligned to its size faults ALIGN.
ACC 3 of that fault is the model's reading (entry 8); that it writes wd in its own step, before its reply, is the model's choice (entry 11). -/
def Obligations.AtomicsCompleteOrFault : Prop :=
  (∀ (i : Instr) (g : AtomForm) (s s1 s2 s4 : State) (c : Nat) (w : Word32) (x : Ctx) (pa : Nat), atomForm i = some g →
    s.acts c w x → s.lets c x i g.feats false g.srcs →
    let n := AmoSize.len g.z
    (s.reg x g.a).toNat % n = 0 →
    (s.forgetIssued c x Need.rmw (s.reg x g.a) n).release c (if Order.rel g.p then some g.sc else none) = (s1, true) →
    s1.checkPart (s1.whoOf c x) Need.rmw anyPlace (s.reg x g.a) n = (s2, .ok pa) → (∀ dev, s2.place pa ≠ .remote dev) →
    (s2.forget (coreOf c) pa n).reach (coreOf c) (some (.ctx c)) true pa n = (s4, true) →
      let old := BitVec.ofNat (8 * n) (s4.peek (localOf pa) n)
      let new := g.f (8 * n) old (BitVec.ofNat (8 * n) (s.reg x g.b).toNat) (BitVec.ofNat (8 * n) (s.reg x g.d).toNat)
      let s5 := if new ≠ old.toNat ∨ g.always = true then s4.poke (localOf pa) (leBytes n new) else s4
      exec i s = .next (((s5.setReg x g.d (old.signExtend 64)).acquire (coreOf c) (if Order.acq g.p then g.sc else .ctx)).past c x .reply)) ∧
  (∀ (s : State) (core pa n line : Nat), s.place pa = .hbm → localOf pa / 64 ≤ line → line ≤ (localOf pa + n - 1) / 64 →
    ((s.forget core pa n).core core).l1d.find? line = none) ∧
  (∀ (s s1 : State) (c : Nat) (x : Ctx) (va : Word) (n pa line : Nat), s.checkPart (s.whoOf c x) Need.rmw anyPlace va n = (s1, .ok pa) →
    s.place pa = .hbm → localOf pa / 64 ≤ line → line ≤ (localOf pa + n - 1) / 64 →
      ((s.forgetIssued c x Need.rmw va n).core (coreOf c)).l1d.find? line = none) ∧
  ∀ (i : Instr) (g : AtomForm) (s : State) (c : Nat) (w : Word32) (x : Ctx), atomForm i = some g →
    s.acts c w x → s.lets c x i g.feats false g.srcs → (s.reg x g.a).toNat % AmoSize.len g.z ≠ 0 →
      exec i s = .next (takeTrap s c x ⟨3, s.reg x g.a, 0, 3, false, 0⟩ w)

/-- 06 R135, R138, R139; 14 R331: FENCE releases and acquires by its order and completes; ICSYNC empties the I-caches within its scope and no other,
makes the fetch agents within a scope of DIE or wider forget what they hold, and goes on; PFL writes no register and no byte, and raises no fault.
That below DIE the lines in the own die's agent leave too is the model's reading (entry 60). -/
def Obligations.FenceIcsyncPrefetch : Prop :=
  ∀ (s : State) (c : Nat) (w : Word32) (x : Ctx), s.acts c w x →
    (∀ sc p s1, s.lets c x (.fence sc p) [] false [] → s.release c (if Order.rel p then some sc else none) = (s1, true) →
      exec (.fence sc p) s = .next ((if Order.acq p then s1.acquire (coreOf c) sc else s1).past c x .idle)) ∧
    (∀ sc, s.lets c x (.icsync sc) [] false [] →
      let die := dieOfCluster (clusterOf c)
      ∃ t, exec (.icsync sc) s = .next t ∧ t.mem = s.mem ∧
        t.ctx? c = some { x with pc := x.pc + 4, st := .idle, got := [], mark := none } ∧ (∀ n, n ≠ c → t.ctx? n = s.ctx? n) ∧
        (∀ n, let inside := match sc with
                | .ctx | .core => n = coreOf c
                | .crew => n / 4 = clusterOf c
                | .die => n / 256 = die
                | .pkg | .domain | .sys => True
              let agents := match sc with
                | .ctx | .core | .crew => False
                | .die | .pkg | .domain | .sys => True
              (inside → (t.core n).icache = [] ∧ (agents → (t.core n).fetchPage = none) ∧ (¬ agents → (t.core n).fetchPage = (s.core n).fetchPage)) ∧
              (¬ inside → t.core n = s.core n)) ∧
        (∀ d, d < 4 → t.lineBuffer d =
          if d = die ∨ sc = .pkg ∨ sc = .domain ∨ sc = .sys then [] else s.lineBuffer d)) ∧
    (∀ h a k, s.lets c x (.pfl h a k) [] false [] → ∃ t, exec (.pfl h a k) s = .next t ∧ t.mem = s.mem ∧
      t.ctx? c = some { x with pc := x.pc + 4, st := .idle, got := [], mark := none } ∧ ∀ n, n ≠ c → t.ctx? n = s.ctx? n)

/-- 06 R140 to R146, 01 R31: the scalar floating-point instructions write their value to wd and raise their flags in FCSR. Special values of sums,
products and fused products are those of R142 and 02 R39; FMIN and FMAX give one of their operands by R143; FCMP compares by R144; FSGN moves the sign
alone by R145; FCVT reads the source and gives the format of each code of R146, a conversion keeps infinities and turns NaNs as 02 R51 says, a
widening one is exact, and an integer is the value rounded and saturated as 02 R52 says. -/
def Obligations.ScalarFloatResults : Prop :=
  (∀ (i : Instr) (f : FloatForm) (s : State) (c : Nat) (w : Word32) (x : Ctx), floatForm (s.reg x) x i = some f →
    s.acts c w x → s.lets c x i f.feats false f.srcs →
      exec i s = .next (((s.setReg x f.d (word f.vf.1)).raise c f.vf.2).past c x .idle)) ∧
  (∀ (f : Fmt) (rm a b c : Nat), f ∈ [fp64, fp32, bf16] →
    let nv := fun (p : Prop) [Decidable p] => if p then 16 else 0
    let none_ := fun (x y : Nat) => (f.decode x).isZero = true ∧ (f.decode y = .inf false ∨ f.decode y = .inf true)
    let invalid := none_ a b ∨ none_ b a
    ((f.decode a = .nan ∨ f.decode b = .nan) →
      f.addOp rm a b = (f.nanCode, nv (f.snan a = true ∨ f.snan b = true)) ∧ f.mulOp rm a b = (f.nanCode, nv (f.snan a = true ∨ f.snan b = true))) ∧
    ((f.decode a = .nan ∨ f.decode b = .nan ∨ f.decode c = .nan) →
      f.fmaOp rm a b c = (f.nanCode, nv (f.snan a = true ∨ f.snan b = true ∨ f.snan c = true ∨ invalid))) ∧
    (invalid → f.mulOp rm a b = (f.nanCode, 16) ∧ f.fmaOp rm a b c = (f.nanCode, 16)) ∧
    (∀ s t, f.decode a = .inf s → f.decode b = .inf t → f.addOp rm a b = (if s = t then (f.infinity s, 0) else (f.nanCode, 16)) ∧
      f.mulOp rm a b = (f.infinity (s != t), 0)) ∧
    (∀ s t n g, f.decode a = .inf s → f.decode b = .fin t n g → f.addOp rm a b = (f.infinity s, 0) ∧ f.addOp rm b a = (f.infinity s, 0) ∧
      (n ≠ 0 → f.mulOp rm a b = (f.infinity (s != t), 0) ∧ f.mulOp rm b a = (f.infinity (s != t), 0) ∧
        (∀ u, f.decode c = .inf u → f.fmaOp rm a b c = (if (s != t) = u then (f.infinity u, 0) else (f.nanCode, 16))))) ∧
    (∀ s m e t n g, f.decode a = .fin s m e → f.decode b = .fin t n g →
      (scaled s m e (min e g) + scaled t n g (min e g) = 0 → f.addOp rm a b = (f.signed (if s = t then s else rm == 3) 0, 0)) ∧
      (m = 0 ∨ n = 0 → f.mulOp rm a b = (f.signed (s != t) 0, 0))) ∧
    f.decode (f.flip a) = (f.decode a).neg ∧ f.snan (f.flip a) = f.snan a) ∧
  (∀ (f : Fmt) (high : Bool) (a b : Nat), f ∈ [fp64, fp32, bf16] → a < 2 ^ f.width → b < 2 ^ f.width →
    let r := f.minMax high a b
    let x := f.decode a
    let y := f.decode b
    r.2 = (if f.snan a = true ∨ f.snan b = true then 16 else 0) ∧
    (x = .nan → y = .nan → r.1 = f.nanCode) ∧ (x = .nan → y ≠ .nan → r.1 = b) ∧ (x ≠ .nan → y = .nan → r.1 = a) ∧
    (x ≠ .nan → y ≠ .nan → (r.1 = a ∨ r.1 = b) ∧
      (high = false → (f.decode r.1).atMost x ∧ (f.decode r.1).atMost y) ∧ (high = true → x.atMost (f.decode r.1) ∧ y.atMost (f.decode r.1)) ∧
      ∀ s t e g, x = .fin s 0 e → y = .fin t 0 g → ∃ h, f.decode r.1 = .fin (if high = true then s && t else s || t) 0 h)) ∧
  (∀ (f : Fmt) (a b : Nat), f ∈ [fp64, fp32, bf16] →
    let x := f.decode a
    let y := f.decode b
    let nan := x = .nan ∨ y = .nan
    let quiet := if f.snan a = true ∨ f.snan b = true then 16 else 0
    ((f.cmpOp .eq a b).1 = true ↔ x.atMost y ∧ y.atMost x) ∧ ((f.cmpOp .lt a b).1 = true ↔ x.atMost y ∧ ¬ y.atMost x) ∧
    ((f.cmpOp .le a b).1 = true ↔ x.atMost y) ∧ ((f.cmpOp .un a b).1 = true ↔ nan) ∧
    (f.cmpOp .eq a b).2 = quiet ∧ (f.cmpOp .un a b).2 = quiet ∧
    ((f.cmpOp .lt a b).2 = 16 ↔ nan) ∧ ((f.cmpOp .le a b).2 = 16 ↔ nan) ∧ (¬ nan → (f.cmpOp .lt a b).2 = 0 ∧ (f.cmpOp .le a b).2 = 0)) ∧
  (∀ (f : Fmt) (o : SgnOp) (a b : Nat), f ∈ [fp64, fp32] → a < 2 ^ f.width → b < 2 ^ f.width →
    let top := 2 ^ (f.width - 1)
    f.sgnOp o a b % top = a % top ∧ f.sgnOp o a b / top = match o with
      | .j => b / top
      | .n => 1 - b / top
      | .x => (a / top + b / top) % 2) ∧
  (∀ (rm : Nat) (v : Word),
    let x := v.toNat
    let y := v.toNat % 2 ^ 32
    let int := fun (f : Fmt) (z : Int) => f.round rm (.fin (decide (z < 0)) z.natAbs 0)
    cvtOp .d_s rm v = convert fp32 fp64 0 y ∧ cvtOp .s_d rm v = convert fp64 fp32 rm x ∧ cvtOp .s_bf rm v = convert bf16 fp32 0 (x % 2 ^ 16) ∧
    cvtOp .bf_s rm v = convert fp32 bf16 0 y ∧ cvtOp .s_h rm v = convert fp16 fp32 0 (x % 2 ^ 16) ∧ cvtOp .h_s rm v = convert fp32 fp16 0 y ∧
    cvtOp .s_e4 rm v = convert e4m3 fp32 0 (x % 2 ^ 8) ∧ cvtOp .e4_s rm v = convert fp32 e4m3 0 y ∧ cvtOp .s_e5 rm v = convert e5m2 fp32 0 (x % 2 ^ 8) ∧
    cvtOp .e5_s rm v = convert fp32 e5m2 0 y ∧ cvtOp .s_f4 rm v = convert fp4 fp32 0 (x % 2 ^ 4) ∧ cvtOp .f4_s rm v = convert fp32 fp4 0 y ∧
    cvtOp .l_d rm v = toIntCode rm true 64 (fp64.decode x) ∧ cvtOp .lu_d rm v = toIntCode rm false 64 (fp64.decode x) ∧
    cvtOp .l_s rm v = toIntCode rm true 64 (fp32.decode y) ∧ cvtOp .lu_s rm v = toIntCode rm false 64 (fp32.decode y) ∧
    cvtOp .w_s rm v = toIntCode rm true 32 (fp32.decode y) ∧ cvtOp .wu_s rm v = toIntCode rm false 32 (fp32.decode y) ∧
    cvtOp .d_l rm v = int fp64 v.toInt ∧ cvtOp .d_lu rm v = int fp64 x ∧ cvtOp .s_l rm v = int fp32 v.toInt ∧ cvtOp .s_lu rm v = int fp32 x ∧
    cvtOp .s_w rm v = int fp32 (v.setWidth 32).toInt) ∧
  (∀ (src dst : Fmt) (rm a : Nat), src ∈ [fp64, fp32, bf16, fp16, e5m2, e4m3, fp4] → dst ∈ [fp64, fp32, bf16, fp16, e5m2, e4m3, fp4] →
    (∀ s m e, src.decode a = .fin s m e → convert src dst rm a = dst.round rm (.fin s m e) ∧
      ((src, dst) ∈ [(fp32, fp64), (bf16, fp32), (fp16, fp32), (e5m2, fp32), (e4m3, fp32), (fp4, fp32)] →
        (convert src dst rm a).2 = 0 ∧ ∃ n g, dst.decode (convert src dst rm a).1 = .fin s n g ∧
          ∀ q, q ≤ e → q ≤ g → scaled s m e q = scaled s n g q)) ∧
    (∀ s, src.decode a = .inf s → convert src dst rm a = if dst.hasInf = true then (dst.infinity s, 0) else (dst.signed s dst.maxCode, 5)) ∧
    (src.decode a = .nan → convert src dst rm a =
      if dst = fp4 then (0, 16) else (dst.nanCode, if src.snan a = true then 16 else 0))) ∧
  ∀ (rm n : Nat) (signed : Bool) (v : XVal), rm < 4 → (n = 32 ∨ n = 64) →
    let lo : Int := if signed = true then -(2 ^ (n - 1)) else 0
    let hi : Int := if signed = true then 2 ^ (n - 1) - 1 else 2 ^ n - 1
    let code := fun (z : Int) => (BitVec.ofInt 64 z).toNat
    (v = .nan → toIntCode rm signed n v = (0, 16)) ∧ (∀ s, v = .inf s → toIntCode rm signed n v = (code (if s = true then lo else hi), 16)) ∧
    ∀ s m e, v = .fin s m e →
      let x := scaled s m e (min e 0)
      let one : Int := 2 ^ (-(min e 0)).toNat
      ∃ y, roundedInt rm x one y ∧ toIntCode rm signed n v =
        (if hi < y then (code hi, 16) else if y < lo then (code lo, 16) else (code y, if y * one = x then 0 else 1))

/-- 06 R140, 01 R31: the frame of scalar floating point: FCSR only gains flags of bits 4 to 0 and keeps its rounding mode; memory changes only in wd,
whose granule loses its error (13 R317), and no other error comes or goes; nothing else of the context but its PC changes. -/
def Obligations.ScalarFloatFrame : Prop :=
  ∀ (i : Instr) (f : FloatForm) (s t : State) (c : Nat) (w : Word32) (x : Ctx), floatForm (s.reg x) x i = some f →
    memWf s.mem = true → s.acts c w x → s.lets c x i f.feats false f.srcs → exec i s = .next t →
      (∃ fl : Word, fl &&& ~~~(31 : Word) = 0 ∧
        t.ctx? c = some { x with pc := x.pc + 4, st := .idle, got := [], mark := none, fcsr := x.fcsr ||| fl }) ∧
      (∀ n, n ≠ c → t.ctx? n = s.ctx? n) ∧ (∀ a, ¬ regBytes x f.d a → memByte t.mem a = memByte s.mem a) ∧
      (∀ g, g ∈ t.bad ↔ g ∈ s.bad ∧ ¬ regGranule x f.d g) ∧ { t with mem := s.mem, bad := s.bad, ctxs := s.ctxs } = s

/-- 06 R150 to R155: the packed instructions compute each lane from its lanes and raise the flags of all; PSHUF picks a byte of wa, or of the old wd,
by each selector of wb. PDOT of integer lanes adds their products to wd modulo 2^64; PDOT of float lanes rounds the exact sum of products and addend
once, and has the special values of R142; PCVT converts the lanes that each code of R153 names. That a NaN among PDOT's terms decides before
infinities of both signs is the model's choice of entry 76. -/
def Obligations.PackedLaneResults : Prop :=
  (∀ (i : Instr) (f : FloatForm) (s : State) (c : Nat) (w : Word32) (x : Ctx), packedForm (s.reg x) x i = some f →
    s.acts c w x → s.lets c x i f.feats false f.srcs →
      exec i s = .next (((s.setReg x f.d (word f.vf.1)).raise c f.vf.2).past c x .idle)) ∧
  (∀ (u : Bool) (w : Nat) (acc a b : Word), (w = 8 ∨ w = 16 ∨ w = 32) →
    let wide := fun (v : Word) (i : Nat) => if u = true then (v.extractLsb' (w * i) w).setWidth 64 else (v.extractLsb' (w * i) w).signExtend 64
    word (dotInt w u acc a b) = (List.range (64 / w)).foldl (fun (n : Word) i => n + wide a i * wide b i) acc) ∧
  (∀ (f : Fmt) (w rm acc : Nat) (a b : Word), (f = bf16 ∧ w = 16) ∨ (f = fp32 ∧ w = 32) →
    let p := fun (v : Word) (i : Nat) => (v.extractLsb' (w * i) w).toNat
    let none_ := fun (x y : XVal) => x.isZero = true ∧ (y = .inf false ∨ y = .inf true)
    let invalid := ∃ i, i < 64 / w ∧ (none_ (f.decode (p a i)) (f.decode (p b i)) ∨ none_ (f.decode (p b i)) (f.decode (p a i)))
    let nan := fp32.decode acc = .nan ∨ invalid ∨ ∃ i, i < 64 / w ∧ (f.decode (p a i) = .nan ∨ f.decode (p b i) = .nan)
    let signalling := fp32.snan acc = true ∨ ∃ i, i < 64 / w ∧ (f.snan (p a i) = true ∨ f.snan (p b i) = true)
    (nan → (dotFloat f w rm acc a b).1 = fp32.nanCode ∧ ((dotFloat f w rm acc a b).2 = 16 ↔ signalling ∨ invalid) ∧
      (¬ signalling → ¬ invalid → (dotFloat f w rm acc a b).2 = 0)) ∧
    (∀ (s : Bool) (m : Nat) (e q : Int) (z : Nat → Int), fp32.decode acc = .fin s m e → q ≤ e →
      (∀ i, i < 64 / w → ∃ t n g t' n' g', f.decode (p a i) = .fin t n g ∧ f.decode (p b i) = .fin t' n' g' ∧ q ≤ g + g' ∧
        z i = scaled (t != t') (n * n') (g + g') q) →
      ∃ t n g, q ≤ g ∧ scaled t n g q = scaled s m e q + ((List.range (64 / w)).map z).sum ∧ dotFloat f w rm acc a b = fp32.round rm (.fin t n g))) ∧
  dotFloat bf16 16 0 0x3F800000 0x39803980 0x39803980 = (0x3F800001, 0) ∧
  (∀ a b : Word,
    let half := fun (i : Nat) => if i < 4 then (a.extractLsb' (16 * i) 16) else (b.extractLsb' (16 * (i - 4)) 16)
    let lanes := fun (m : PcvtOp) (w : Nat) (g : Nat → Nat × Nat) =>
      (∀ i, i < 64 / w → (pcvtOp m a b).1 / 2 ^ (w * i) % 2 ^ w = (g i).1) ∧
      ∀ k, (pcvtOp m a b).2.testBit k = true ↔ ∃ i, i < 64 / w ∧ (g i).2.testBit k = true
    let clamp := fun (lo hi : Int) (v : BitVec 16) => if v.toInt < lo then lo else if hi < v.toInt then hi else v.toInt
    lanes .bf_s 16 (fun i => convert fp32 bf16 0 (if i < 2 then a.extractLsb' (32 * i) 32 else b.extractLsb' (32 * (i - 2)) 32).toNat) ∧
    lanes .s_bfl 32 (fun i => convert bf16 fp32 0 (a.extractLsb' (16 * i) 16).toNat) ∧
    lanes .s_bfh 32 (fun i => convert bf16 fp32 0 (a.extractLsb' (32 + 16 * i) 16).toNat) ∧
    lanes .e4_bf 8 (fun i => convert bf16 e4m3 0 (half i).toNat) ∧ lanes .e5_bf 8 (fun i => convert bf16 e5m2 0 (half i).toNat) ∧
    lanes .b_h 8 (fun i => ((BitVec.ofInt 8 (clamp (-128) 127 (half i))).toNat, 0)) ∧
    lanes .bu_h 8 (fun i => ((BitVec.ofInt 8 (clamp 0 255 (half i))).toNat, 0)) ∧
    lanes .h_bl 16 (fun i => (((a.extractLsb' (8 * i) 8).signExtend 16).toNat, 0)) ∧
    lanes .h_bh 16 (fun i => (((a.extractLsb' (32 + 8 * i) 8).signExtend 16).toNat, 0))) ∧
  ∀ (s : State) (c : Nat) (w : Word32) (x : Ctx) (d a b : Reg), s.acts c w x → s.lets c x (.pshuf d a b) [2] false [a, b, d] →
    ∃ v : Word, exec (.pshuf d a b) s = .next (s.gives c x d v) ∧ ∀ j, j < 8 →
      let sel := (s.reg x b).toNat / 16 ^ j % 16
      v.toNat / 256 ^ j % 256 = (if sel < 8 then (s.reg x a).toNat / 256 ^ sel % 256 else (s.reg x d).toNat / 256 ^ (sel - 8) % 256)

/-- 06 R147 to R149: a special-function instruction queues its request behind those of its core's unit, with the generation and workspace of its
context, and waits; the oldest request whose service has ended writes its result to the workspace that issued it, and its flags to its context, which
it wakes; one whose workspace has changed its generation writes nothing, and nothing else suppresses the result. Quotient, square root, reciprocal and
its root are the exact values rounded once, with the special cases of R147; a power of two with a whole exponent and the logarithm of a power of two
are exact, and the other powers and logarithms have those special cases; how these are rounded is entry 15. -/
def Obligations.SpecialFunctionUnit : Prop :=
  (∀ (i : Instr) (fn : SfuFn) (d : Reg) (srcs : List Reg) (rm : Nat) (p : Prec) (u v : Word) (s : State) (c : Nat) (w : Word32) (x : Ctx),
    sfuForm (s.reg x) x i = some (fn, d, srcs, rm, p, u, v) → s.acts c w x →
    s.lets c x i (match p with | .d => [1, 5] | .s => [1]) false srcs →
      let k := s.core (coreOf c)
      let fin := Nat.max s.now k.sfuFree + sfuTime fn p
      exec i s = .next ((s.setCore (coreOf c) { k with
        sfu := k.sfu ++ [⟨k.sfuNext, slotOf c, BitVec.ofNat 8 (field (s.contWord x) 15 8), x.wp, d, fn, p, rm, u, v, fin⟩], sfuFree := fin, sfuNext := k.sfuNext + 1 }).past c x
          (.waiting (.sfu k.sfuNext)))) ∧
  (∀ (s : State) (core : Nat) (q : SfuReq) (l : List SfuReq), (s.core core).sfu = q :: l → q.finish ≤ s.now →
    let s1 := s.setCore core { s.core core with sfu := l }
    let c := 64 * core + q.slot
    (∀ x, s.ctx? c = some x → x.wp = q.wp → BitVec.ofNat 8 (field (s.contWord x) 15 8) = q.gen → x.st = .waiting (.sfu q.num) →
      let r := sfuOp q.fn (fmtOf q.prec) q.rm (fpArg q.prec q.a) (fpArg q.prec q.b)
      exec (.sfuResult core) s = .next (((s1.setReg x q.d (word r.1)).raise c r.2).wake c)) ∧
    (BitVec.ofNat 8 (field (s.peek64 q.wp.toNat) 15 8) ≠ q.gen → exec (.sfuResult core) s = .next s1) ∧
    (s.ctx? c = none → BitVec.ofNat 8 (field (s.peek64 q.wp.toNat) 15 8) = q.gen → q.d ≠ 0 → exec (.sfuResult core) s =
      .next (s1.poke64 (q.wp.toNat + 8 * q.d.toNat) (word (sfuOp q.fn (fmtOf q.prec) q.rm (fpArg q.prec q.a) (fpArg q.prec q.b)).1)))) ∧
  (∀ (f : Fmt) (rm a b : Nat), (f = fp64 ∨ f = fp32) → rm < 4 →
    let one := fun (fn : SfuFn) => sfuOp fn f rm a b
    let inf := fun (neg : Bool) => f.infinity neg
    let nan := fun (flags : Nat) => (f.nanCode, flags)
    let quiet := fun (p : Bool) => if p = true then 16 else 0
    ((f.decode a = .nan ∨ f.decode b = .nan) → one .div = nan (quiet (f.snan a || f.snan b))) ∧
    (f.decode a = .nan → ∀ fn, fn ≠ .div → one fn = nan (quiet (f.snan a))) ∧
    (∀ s, f.decode a = .inf s →
      (∀ t, f.decode b = .inf t → one .div = nan 16) ∧ (∀ t n g, f.decode b = .fin t n g → one .div = (inf (s != t), 0)) ∧
      one .rcp = (f.signed s 0, 0) ∧ (s = true → one .sqrt = nan 16 ∧ one .rsq = nan 16 ∧ one .exp2 = (0, 0) ∧ one .log2 = nan 16) ∧
      (s = false → one .sqrt = (inf false, 0) ∧ one .rsq = (0, 0) ∧ one .exp2 = (inf false, 0) ∧ one .log2 = (inf false, 0))) ∧
    (∀ s m e, f.decode a = .fin s m e →
      (∀ t, f.decode b = .inf t → one .div = (f.signed (s != t) 0, 0)) ∧
      (∀ t g, f.decode b = .fin t 0 g → one .div = if m = 0 then nan 16 else (inf (s != t), 8)) ∧
      (∀ t n g, f.decode b = .fin t n g → m = 0 → n ≠ 0 → one .div = (f.signed (s != t) 0, 0)) ∧
      (∀ t n g q, f.decode b = .fin t n g → m ≠ 0 → n ≠ 0 → q ≤ e - g → q ≤ 1 - (f.bias : Int) - f.fbits →
        f.rounds rm (s != t) q (fun p => compare (p * n) (2 * (m * 2 ^ (e - g - q).toNat))) (one .div)) ∧
      (m = 0 → one .sqrt = (f.signed s 0, 0) ∧ one .rcp = (inf s, 8) ∧ one .rsq = (inf s, 8) ∧ one .exp2 = f.round rm (.fin false 1 0) ∧
        one .log2 = (inf true, 8)) ∧
      (m ≠ 0 → s = true → one .sqrt = nan 16 ∧ one .rsq = nan 16 ∧ one .log2 = nan 16) ∧
      (∀ q, m ≠ 0 → q ≤ -e → q ≤ 1 - (f.bias : Int) - f.fbits → f.rounds rm s q (fun p => compare (p * m) (2 * 2 ^ (-e - q).toNat)) (one .rcp)) ∧
      (∀ q, m ≠ 0 → s = false → 2 * q ≤ e → q ≤ 1 - (f.bias : Int) - f.fbits →
        f.rounds rm false q (fun p => compare (p * p) (4 * (m * 2 ^ (e - 2 * q).toNat))) (one .sqrt)) ∧
      (∀ q, m ≠ 0 → s = false → e + 2 * q ≤ 0 → q ≤ 1 - (f.bias : Int) - f.fbits →
        f.rounds rm false q (fun p => compare (p * p * m) (4 * 2 ^ (-(e + 2 * q)).toNat)) (one .rsq)) ∧
      (∀ i : Int, i.natAbs < 65536 → scaled s m e (min e 0) = i * 2 ^ (-(min e 0)).toNat → one .exp2 = f.round rm (.fin false 1 i)) ∧
      (∀ k : Nat, m = 2 ^ k → s = false → one .log2 = f.round rm (.fin (decide (e + k < 0)) (e + k).natAbs 0)))) ∧
  ∀ fn : SfuFn, sfuTime fn .s = (match fn with | .div => 12 | .rcp => 12 | .sqrt => 14 | .rsq => 14 | .exp2 => 16 | .log2 => 16) ∧
    sfuTime fn .d = (match fn with | .div => 20 | .rcp => 20 | .sqrt => 24 | .rsq => 24 | .exp2 => 28 | .log2 => 28)

/-- 06 R156, R157; 02 R59: LACZ zeroes the 48 bytes of a long accumulator, LACA adds its operand exactly and raises NV for a signalling NaN, and LACR
rounds the accumulator to wd with its flags. In a bank or a core store the 48 bytes are zero, or hold the sum, after the instruction, and no other
byte of memory has changed; HBM gets the same from the entry in the store path. One that is not 64-byte aligned faults ALIGN, whose ACC 3 is the
model's reading (entry 8). That LACR writes wd in its own step, before its reply, is the model's choice (entry 11). -/
def Obligations.LongAccumulatorCompletes : Prop :=
  (∀ (s s1 : State) (c : Nat) (w : Word32) (x : Ctx) (d a b : Reg) (k : LacKind) (pa : Nat), s.acts c w x →
    let va := s.reg x a
    let v := s.reg x b
    let nv := if (lacOperand k v).2 then 16 else 0
    let here := fun (t : State) => ∃ n off, t.place pa = .pad n off ∨ t.place pa = .store n off
    let leaves := fun (t : State) (bs : List Byte) => memRead t.mem (localOf pa) 48 = bs ∧
      ∀ m, (m < localOf pa ∨ localOf pa + 48 ≤ m) → memByte t.mem m = memByte s.mem m
    (va.toNat % 64 ≠ 0 →
      (s.lets c x (.lacz a) [3] false [a] → exec (.lacz a) s = s.faults c x ⟨3, va, 0, 3, false, 0⟩ w) ∧
      (s.lets c x (.laca a b k) [3] false [a, b] → exec (.laca a b k) s = s.faults c x ⟨3, va, 0, 3, false, 0⟩ w) ∧
      (s.lets c x (.lacr d a) [3] false [a] → exec (.lacr d a) s = s.faults c x ⟨3, va, 0, 3, false, 0⟩ w)) ∧
    (va.toNat % 64 = 0 →
      (s.lets c x (.lacz a) [3] false [a] → s.checkPart (s.whoOf c x) { Need.rmw with blind := true } anyPlace va 48 = (s1, .ok pa) →
        (here s1 → memWf s.mem = true → ∃ t, exec (.lacz a) s = .next t ∧ leaves t (List.replicate 48 0)) ∧
        (s1.place pa = .hbm → exec (.lacz a) s = .next ((s1.enterPath (coreOf c) ⟨pa, .lacZero, x.region, 0⟩).past c x .idle))) ∧
      (s.lets c x (.laca a b k) [3] false [a, b] →
        s.checkPart (s.whoOf c x) { Need.rmw with free := true } anyPlace va 48 = (s1, .ok pa) → s1.lacError (s1.whoOf c x) pa k v = none →
        (here s1 → memWf s.mem = true → ∃ t, exec (.laca a b k) s = .next t ∧
          leaves t (leBytes 48 (lacAdd (leNat (memRead s.mem (localOf pa) 48)) (lacOperand k v).1)) ∧
          t.ctx? c = some { x with pc := x.pc + 4, st := .idle, got := [], mark := none, fcsr := x.fcsr ||| word nv }) ∧
        (s1.place pa = .hbm → exec (.laca a b k) s =
          .next (((s1.enterPath (coreOf c) ⟨pa, .lacAdd k v, x.region, 0⟩).raise c nv).past c x .idle))) ∧
      (∀ s2, s.lets c x (.lacr d a) [3] false [a] →
        s.checkPart (s.whoOf c x) { Need.rmw with only := true } anyPlace va 48 = (s1, .ok pa) →
        (∀ dev, s1.place pa ≠ .remote dev) → (s1.forget (coreOf c) pa 48).reach (coreOf c) (some (.ctx c)) false pa 48 = (s2, true) →
          let r := lacRound x.rm (leNat (memRead s2.mem (localOf pa) 48))
          exec (.lacr d a) s = .next (((s2.setReg x d (word r.1)).raise c r.2).past c x .reply)))) ∧
  (∀ (t : State) (m : Nat) (k : LacKind) (v : Word), memWf t.mem = true →
    memRead (t.applyOp m .lacZero).mem m 48 = List.replicate 48 0 ∧
    memRead (t.applyOp m (.lacAdd k v)).mem m 48 = leBytes 48 (lacAdd (leNat (memRead t.mem m 48)) (lacOperand k v).1)) ∧
  ∀ (old : Nat) (sg : Bool) (m : Nat) (e v : Int), lacSpecial old = false → v = (BitVec.ofNat 384 old).toInt + scaled sg m e (-149) →
    -(2 ^ 351 : Int) ≤ v → v < 2 ^ 351 → (BitVec.ofNat 384 (lacAdd old (.fin sg m e))).toInt = v

/-- 07 R162; 03 R69, R74, R78: TOPEN of a buffer of the crew's own scratchpad whose granules are free makes it OPEN with FILL 0, tags its first
granule HEAD and the rest of its extent OPEN, and arms a timer where a delay is given and fewer than 64 are armed, which stands still with its whole
delay while the crew is frozen or a pre-emption quiesces it (13 R315, R319); else it answers status 5; where a granule is not free it faults
SHELF_STATE. That it waits while another device's tested write to the header is under way is the model's (entry 63). An answer in wd stands there
before the reply (the model's: entry 11). -/
def Obligations.TileBuffersOpen : Prop :=
  ∀ (s s1 : State) (c : Nat) (w : Word32) (x : Ctx) (d a b : Reg) (k off : Nat), s.acts c w x → s.lets c x (.topen d a b) [6] false [a, b] →
    let v := s.reg x b
    let h := s1.hdrAt (padAddr k off)
    let n := hExtent h
    let delay := v.toNat % 2 ^ 31
    let ts := (s1.cluster k).timers
    s.buffer c x true (s.reg x a) s1 k off → v.getLsbD 31 = false → v.toNat / 2 ^ 33 = 0 → hdrFault true off h = none →
    s1.promised k off 32 = false →
      ((s1.cluster k).granulesFree off n = false → exec (.topen d a b) s = s1.faults c x (flt .shelfState (s.reg x a) 3) w) ∧
      ((s1.cluster k).granulesFree off n = true → delay ≠ 0 → 64 ≤ ts.length → exec (.topen d a b) s = s1.answers c x d 5) ∧
      ((s1.cluster k).granulesFree off n = true → (delay = 0 ∨ ts.length < 64) →
        ∃ t : State, exec (.topen d a b) s = t.answers c x d 0 ∧
          hState (t.hdrAt (padAddr k off)) = 1 ∧ hFill (t.hdrAt (padAddr k off)) = 0 ∧
          (∀ g, off / 256 ≤ g → 256 * g < off + n → (t.cluster k).guard g = if g = off / 256 then 1 else 2) ∧
          (t.cluster k).timers = ts ++ (if delay = 0 then []
            else [⟨off, deadlineAt (s1.cycleOf (dieOfCluster k)) delay, Machine.MxUnit.ofNat (v.toNat / 2 ^ 32), c,
              if (s1.cluster k).frozen = true ∨ s1.quiescing k = true then some delay else none⟩]))

/-- 07 R165 to R168; 03 R75, R77: SEAL of an OPEN buffer, or of a RESULT that no CSTORE still writes, closes its granules, ends its timer and puts its
handle on the shelf that b names; a shelf with no room takes a request, one that does not accept answers 9, and a CLOSED buffer answers 4. TFREE gives
the granules back. That a SEAL waits while another device's tested write to the buffer is under way is the model's (entry 63). Requests of one s-cycle
stand in the order of 12 R291, and behind every earlier one; the status stands in wd before the reply (the model's: entry 11). -/
def Obligations.TileSealAndFree : Prop :=
  ∀ (s s1 s2 : State) (c : Nat) (w : Word32) (x : Ctx) (d a b : Reg) (k off : Nat), s.acts c w x →
    let va := s.reg x a
    let here := padAddr k off
    let free := fun (t : State) => t.seen k off = .free ∨ t.seen k off = .inside
    let live := fun (t : State) => t.seen k off = .opened ∨ (t.seen k off = .result ∧ t.storing k off = false)
    let extent := fun (t : State) (g : Nat) => off / 256 ≤ g ∧ 256 * g < off + hExtent (t.hdrAt here)
    (s.lets c x (.seal d a b) [6] false [a, b] → (s.reg x b).toNat ≤ 1 → s.buffer c x true va s1 k off →
      s1.release c (some .crew) = (s2, true) →
        let u := if s.reg x b = 0 then MxUnit.mx0 else MxUnit.mx1
        let m := s2.mx k u
        let answer := fun (t : State) (st : Nat) => t.answers c x d (word (st + 256 * t.fillAt k off))
        (s2.seen k off = .closed → exec (.seal d a b) s = answer s2 4) ∧
        (free s2 → exec (.seal d a b) s = s2.faults c x (flt .shelfState va 3) w) ∧
        (live s2 → m.accepts = false → exec (.seal d a b) s = answer s2 9) ∧
        (live s2 → m.accepts = true → m.shelf.length < 32 → m.queue = [] → s2.sealPromised k off = false →
          ∃ t : State, exec (.seal d a b) s = answer t 0 ∧ hState (t.hdrAt here) = 2 ∧ (t.mx k u).shelf = m.shelf ++ [off] ∧
            (∀ g, extent s2 g → (t.cluster k).guard g = 3) ∧ ∀ q ∈ (t.cluster k).timers, q.hdr ≠ off) ∧
        (live s2 → m.accepts = true → (32 ≤ m.shelf.length ∨ m.queue ≠ []) →
          exec (.seal d a b) s =
            .next ((s2.setMx k u { m with queue := joinQueue ⟨off, .context c, s2.now⟩ m.queue }).past c x (.waiting (.sealing d off u)))) ∧
        ((∀ r ∈ m.queue, r.since < s2.now) → joinQueue ⟨off, .context c, s2.now⟩ m.queue = m.queue ++ [⟨off, .context c, s2.now⟩])) ∧
    (s.lets c x (.tfree a) [6] false [a] → s.buffer c x true va s1 k off →
      (free s1 ∨ s1.seen k off = .closed → exec (.tfree a) s = s1.faults c x (flt .shelfState va 3) w) ∧
      (live s1 → ∃ t : State, exec (.tfree a) s = t.replyTo c x ∧ hState (t.hdrAt here) = 0 ∧
        (∀ g, extent s1 g → (t.cluster k).guard g = 0) ∧ ∀ q ∈ (t.cluster k).timers, q.hdr ≠ off))

/-- 07 R163, R164, R165, R169: the first steps of TROW and TELM on an OPEN buffer of a format they serve keep what the second step will write, and the
second step writes it; a CLOSED buffer answers status 4 at either step. TFILL of at most 256 rows of an OPEN buffer counts them after its release; of
none it counts none. THDR of a header in a scratchpad that passes its tests returns one of its four doublewords, with STATE as 0 where the granule is
free. That the second step makes no peer or freeze test again is the model's reading (entry 68), and an answer in wd stands there before the reply
(the model's: entry 11). -/
def Obligations.TileAccesses : Prop :=
  (∀ (s s1 s2 : State) (c : Nat) (w : Word32) (x : Ctx) (d a b rc : Reg) (k off : Nat) (bs : List Byte), s.acts c w x →
    let va := s.reg x a
    let h := s1.hdrAt (padAddr k off)
    let pa := s1.ctl.devid * Config.localEnd + padAddr k off
    let i := s.reg x rc
    s.buffer c x false va s1 k off →
      (s.lets c x (.trow d a b rc) [6] false [a, b, rc] → i.toNat < 256 →
        (s1.seen k off = .closed → exec (.trow d a b rc) s = s1.answers c x d (word (4 + 256 * s1.fillAt k off))) ∧
        (s1.seen k off = .opened → hLayout h = 0 → (hSparse h = 0 ∨ hSparse h = 4) → i.toNat < hRows h →
          s1.readBytes c x (s.reg x b) (ceilDiv (hLineBits h) 8) = .ok (s2, bs) →
            exec (.trow d a b rc) s =
              .next (s2.stays c w (.row ⟨d, va, pa, i.toNat, true, 0, 8 * bs.length, hBody h + i.toNat * hStride h, bs⟩)))) ∧
      (s.lets c x (.telm d a b rc) [6] false [a, b, rc] → i.toNat < 2 ^ 32 →
        let row := i.toNat / 65536
        let col := i.toNat % 65536
        let bit := (hBitAddr h 0 row col).getD 0
        let wd := (hElem h).width
        (s1.seen k off = .closed → exec (.telm d a b rc) s = s1.answers c x d (word (4 + 256 * s1.fillAt k off))) ∧
        (s1.seen k off = .opened → (hElem h).isBx = false → (hSparse h = 0 ∨ hSparse h = 4) → row < hRows h → col < hCols h →
          exec (.telm d a b rc) s = .next (s1.stays c w (.row ⟨d, va, pa, i.toNat, false, bit % 8, wd, bit / 8,
            leBytes (ceilDiv (bit % 8 + wd) 8) ((s.reg x b).toNat % 2 ^ wd * 2 ^ (bit % 8))⟩))))) ∧
  (∀ (s : State) (c : Nat) (x : Ctx) (r : RowStep) (k off : Nat) (rep : Reply), s.ctx? c = some x → x.st = .row r → s.place r.pa = .pad k off →
    let here := padAddr k off
    let n := Nat.min r.data.length (hExtent (s.hdrAt here) - r.off)
    let ends := fun (t : State) (st : Nat) =>
      Host.Outcome.next ((((t.setReg x r.d (word (st + 256 * t.fillAt k off))).dropWaits c).past c x .idle).wake c)
    badIn s.bad here 32 = false →
      (s.seen k off = .closed → exec (.memoryReply c rep) s = ends s 4) ∧
      (s.seen k off = .opened → badPartial s.bad (here + r.off) n = none →
        (r.setMask = true → exec (.memoryReply c rep) s = ends ((s.poke (here + r.off) (r.data.take n)).countRows k off (some r.row) 0 false) 0) ∧
        (r.setMask = false → n = r.data.length → exec (.memoryReply c rep) s = ends
          (s.poke (here + r.off) (mergeBits (memRead s.mem (here + r.off) n) r.data r.shift r.width)) 0))) ∧
  ∀ (s s1 s2 : State) (c : Nat) (w : Word32) (x : Ctx) (d a b : Reg) (k off : Nat), s.acts c w x →
    let va := s.reg x a
    (s.lets c x (.tfill d a b) [6] false [a, b] → (s.reg x b).toNat ≤ 256 → s.buffer c x false va s1 k off →
      s1.release c (some (tfillScope c k)) = (s2, true) →
        (s2.seen k off = .closed → exec (.tfill d a b) s = s2.answers c x d (word (4 + 256 * s2.fillAt k off))) ∧
        (s2.seen k off = .opened →
          let t := if s.reg x b = 0 then s2 else s2.countRows k off none (s.reg x b).toNat true
          exec (.tfill d a b) s = t.answers c x d (word (256 * t.fillAt k off)))) ∧
    (∀ (n : BitVec 2) (pa : Nat), s.lets c x (.thdr d a n) [6] false [a] → va.toNat % 32 = 0 →
      s.checkPart (s.whoOf c x) Need.load thdrWant va 32 = (s1, .ok pa) → s1.place pa = .pad k off →
        let h := s1.hdrAt (localOf pa)
        let h' := if off % 256 = 0 ∧ (s1.cluster k).guard (off / 256) = 0 then setField h 31 24 0 else h
        hdrFault true off h' = none → placeLocal (localOf pa) = .pad k off →
          exec (.thdr d a n) s = s1.answers c x d (h'.extractLsb' (64 * n.toNat) 64))

/-- 07 R171, R172, R180; 12 R292: XCP of a well-formed record queues a copy on its engine, counts it on its tag and answers the engine; a full tag or
a full queue answers status 6 and changes nothing; ALIGN is tested before the register of the tag. WDQ sends a query to the coordinator and counts it
on its tag. An answer in wd stands there before the reply (the model's: entry 11). -/
def Obligations.CopiesAndQueriesAreQueued : Prop :=
  ∀ (s s1 : State) (c : Nat) (w : Word32) (x : Ctx) (d a b : Reg), s.acts c w x →
    let va := s.reg x a
    let v := s.reg x b
    let n := coreOf c
    (s.lets c x (.xcp d a b) [7] false [a, b] → va.toNat % 64 ≠ 0 → exec (.xcp d a b) s = s.faults c x (flt .align va) w) ∧
    (∀ (s2 s3 : State) (ps : List (Nat × Nat)) (bs : List Byte), s.lets c x (.xcp d a b) [7] false [a, b] →
      v.toNat < 2 ^ 16 → v.getLsbD 6 = false → v.getLsbD 7 = false → va.toNat % 64 = 0 →
      s.checkLines (s.whoOf c x) Need.load xcpWant 4 va 256 = (s1, .ok ps) → ps.find? xcpOutside = none →
      s1.release c (some .sys) = (s2, true) → s2.gather c x va ps = .ok (s3, bs) → s3.xcpLate v c = false →
        let dw := (List.range 32).map (recWord bs)
        let t := v.toNat % 64
        let g := s3.tag n t
        let e := if v.getLsbD 15 then s3.pickEngine (dieOfCluster (clusterOf c)) else v.toNat / 256
        (recordOk dw = false → exec (.xcp d a b) s = s3.faults c x (flt .bounds va) w) ∧
        (recordOk dw = true → g.count = 4095 → exec (.xcp d a b) s = s3.answers c x d 0x106) ∧
        (recordOk dw = true → g.count ≠ 4095 → 16 ≤ (s3.engine e).queue.length → exec (.xcp d a b) s = s3.answers c x d 6) ∧
        (recordOk dw = true → g.count ≠ 4095 → (s3.engine e).queue.length < 16 →
          ∃ q : CopyCmd, q.words = dw ∧ q.addr = va ∧ q.core = n ∧ q.tag = t ∧ q.region = x.region ∧ q.asid = x.asid ∧
            q.supervisor = (x.level == .supervisor) ∧ q.begun = false ∧ q.next = q.resume ∧
            exec (.xcp d a b) s = ((s3.setEngine e { s3.engine e with queue := (s3.engine e).queue ++ [q], latest := some (s3.now, n, s3.issueMark c) }).setTag n t
              { g with count := g.count + 1 }).answers c x d (word (256 * e)))) ∧
    (∀ pa, s.lets c x (.wdq d a b) [7] false [a, b] → v.toNat < 64 → va.toNat % 8 = 0 →
      s.checkPart (s.whoOf c x) Need.put (wdqWant c) va 8 = (s1, .ok pa) →
        let g := s1.tag n v.toNat
        (g.count = 4095 → exec (.wdq d a b) s = s1.answers c x d 0x106) ∧
        (g.count ≠ 4095 → s1.queriesOf (dieOfCluster (clusterOf c)) < 1024 →
          let s2 := s1.setTag n v.toNat { g with count := g.count + 1 }
          exec (.wdq d a b) s = State.answers { s2 with co := { s2.co with queries := s2.co.queries ++
            [⟨c, s1.spanOf c, s1.rankOf c, v.toNat, localOf pa, s1.now + 60, false, x.level == .supervisor⟩] } } c x d 0))

/-- 07 R175 to R177: CTWAIT of a tag with no operation under way, or with its fault bit set, returns its word at once and else waits; CTANY the same
for the lowest ready tag of a mask, and 64 for an empty mask; CTFF returns the word and clears the fault slot, and the oldest parked report lands;
CTRD reads the word or a doubleword of the slot and changes nothing else. -/
def Obligations.CompletionTags : Prop :=
  ∀ (s : State) (c : Nat) (w : Word32) (x : Ctx) (d a : Reg), s.acts c w x →
    let v := s.reg x a
    let n := coreOf c
    let g := s.tag n v.toNat
    let done := fun (t : State) (n k : Nat) => if (t.tag n k).count = 0 then t.acquire n .sys else t
    (s.lets c x (.ctwait d a) [7] false [a] → v.toNat < 64 →
      (g.count = 0 ∨ g.fault = true → exec (.ctwait d a) s = .next ((done (s.setReg x d g.packed) n v.toNat).past c x .idle)) ∧
      (g.count ≠ 0 → g.fault = false → exec (.ctwait d a) s = .next (s.past c x (.waiting (.tag d v.toNat))))) ∧
    (s.lets c x (.ctany d a) [7] false [a] →
      (v = 0 → exec (.ctany d a) s = .next (s.gives c x d 64)) ∧
      (∀ k, k < 64 → v.getLsbD k = true → (s.tag n k).ready = true → (∀ j, j < k → v.getLsbD j = true → (s.tag n j).ready = false) →
        exec (.ctany d a) s = .next ((done (s.setReg x d (word (k + 65536 * (s.tag n k).packed.toNat))) n k).past c x .idle)) ∧
      (v ≠ 0 → (∀ k, k < 64 → v.getLsbD k = true → (s.tag n k).ready = false) →
        exec (.ctany d a) s = .next (s.past c x (.waiting (.anyTag d v))))) ∧
    (s.lets c x (.ctff d a) [7] false [a] → v.toNat < 64 →
      exec (.ctff d a) s = .next ((((s.setReg x d g.packed).setTag n v.toNat ⟨g.count, false, 0, 0, 0, 0⟩).landParked n v.toNat).past c x .idle)) ∧
    (∀ i : BitVec 3, s.lets c x (.ctrd d a i) [7] false [a] → v.toNat < 64 →
      exec (.ctrd d a i) s = .next (s.gives c x d (([g.packed, g.fr0, g.fr1, g.fr2, g.fr3]).getD i.toNat 0)))

/-- 07 R181 to R184; 11 R270: ENQ reads its entry, releases at the queue's scope and answers the queue's step; DEQ tests its destination, then answers
the step, stores the entry and acquires at the queue's scope; QINFO returns the number of entries. The step of ENQ on a usable queue of its entry's
size that has room puts the entry's bytes into the ring at TAIL, which advances by one, and answers OK; on a full queue it answers FULL; on one of
another generation STALE, changing nothing; an entry of another size faults BOUNDS. A queue with LIMIT or more entries diverts the entry, with bit 63
of its first doubleword set, to the queue that OVF names, and answers 2; it answers 1 with bit 9 where OVF is 0, and what is wrong with the other
queue with bit 8. That of DEQ returns the bytes at HEAD, which advances by one. A ring entry away from this device is fetched or written first (the
model's: entry 16), and the answers are in wd in the instruction's own step, before its reply (entry 11). -/
def Obligations.HardwareQueues : Prop :=
  ∀ (s s1 s2 s3 : State) (c : Nat) (w : Word32) (x : Ctx) (d a b : Reg) (e : EntrySize), s.acts c w x →
    let n := EntrySize.len e
    let who := s.whoOf c x
    let qh := s.reg x a
    let gen := qh.toNat / 2 ^ 48
    let unusable := fun (q : QDesc) (g : Nat) => q.usable = false ∨ q.gen ≠ g
    (∀ (bs : List Byte) (pa : Nat) (u : State), s.lets c x (.enq d a b e) [] false [a, b] → (s.reg x b).toNat % 8 = 0 →
      s.readBytes c x (s.reg x b) n = .ok (u, bs) →
      u.qFind (u.whoOf c x) true qh = (s1, .ok pa) →
      s1.release c (if x.got.any (·.2.isEmpty) then none else some (scopeOf (qRead s1 pa).scope)) = (s2, true) →
      s2.ringAway (u.whoOf c x) x.got true qh n = none →
        (∀ q, s2.enqAt (u.whoOf c x) qh n bs pa = (s3, .ok q) → exec (.enq d a b e) s = s3.answers c x d (word q.value)) ∧
        (∀ f, s2.enqAt (u.whoOf c x) qh n bs pa = (s3, .fault f) → exec (.enq d a b e) s = s3.faults c x f w)) ∧
    (∀ (ps : List (Nat × Nat)), s.lets c x (.deq d a b e) [] false [a, b] → (s.reg x b).toNat % 8 = 0 →
      s.checkAccess who Need.put anyPlace (s.reg x b) n = (s1, .ok ps) → s1.probe x (s.reg x b) 1 ps = none →
      s1.ringAway (s1.whoOf c x) x.got false qh n = none →
        let step := s1.deq (s1.whoOf c x) x.got qh n true
        (step = (s2, .ok .stale) → exec (.deq d a b e) s = (s2.giveUp c).answers c x d 3) ∧
        (step = (s2, .ok .empty) → exec (.deq d a b e) s = (s2.giveUp c).answers c x d 8) ∧
        (∀ f, step = (s2, .fault f) → exec (.deq d a b e) s = s2.faults c x f w) ∧
        (∀ bs sc, step = (s2, .ok (.entry bs sc)) →
          let made := s2.commit (s.reg x b) 1 (splitStore ps bs) c x
          exec (.deq d a b e) s = .next (((made.1.setReg x d 0).acquire (coreOf c) sc).past c x (made.2.getD .reply)) ∧
          (x.granted = [] → (∀ p ∈ ps, s2.awayPad p.1 = false) →
            made = ((s2.storeParts (s2.whoOf c x) (coreOf c) (splitStore ps bs)).1, none)))) ∧
    (∀ pa, s.lets c x (.qinfo d a) [] false [a] → s.qFind who false qh = (s1, .ok pa) →
      let q := qRead s1 pa
      exec (.qinfo d a) s = s1.answers c x d (if q.usable = true ∧ q.gen = gen then word (256 * (q.count % 2 ^ 24)) else 3)) ∧
    (∀ (v : Who) (bs : List Byte) (pa : Nat) (r : State × Res QAns), s.enqAt v qh n bs pa = r →
      let q := qRead s pa
      (unusable q gen → r = (s, .ok ⟨3, 0⟩)) ∧
      (¬ unusable q gen → n ≠ q.size → r = (s, .fault (flt .bounds qh))) ∧
      (¬ unusable q gen → n = q.size → (q.limit = 0 ∨ q.count < q.limit) →
        (q.count = 2 ^ q.log2cap → r = (s, .ok ⟨1, 0⟩)) ∧
        (q.count ≠ 2 ^ q.log2cap → memWf s.mem = true → ∀ t p, r = (t, .ok p) →
          p = ⟨0, q.tail⟩ ∧ t.peek64 (localOf pa + 24) = q.tail + 1 ∧
          ∀ pb, s.qRing v true (q.slot q.tail) n = (s1, .ok [(pb, n)]) → s1.away pb = false → bs.length = n →
            (localOf pb + n ≤ localOf pa + 24 ∨ localOf pa + 32 ≤ localOf pb) → memRead t.mem (localOf pb) n = bs)) ∧
      (¬ unusable q gen → n = q.size → q.limit ≠ 0 → q.limit ≤ q.count →
        (q.ovf = 0 → r = (s, .ok ⟨1 + 512, 0⟩)) ∧
        ∀ po, q.ovf ≠ 0 → s.qFind v true q.ovf = (s1, .ok po) →
          let o := qRead s1 po
          (unusable o (q.ovf.toNat / 2 ^ 48) ∨ o.size ≠ n → r = (s1, .ok ⟨3 + 256, 0⟩)) ∧
          (¬ unusable o (q.ovf.toNat / 2 ^ 48) → o.size = n →
            (o.count = 2 ^ o.log2cap → r = (s1, .ok ⟨1 + 256, 0⟩)) ∧
            (o.count ≠ 2 ^ o.log2cap → memWf s.mem = true → ∀ t p, r = (t, .ok p) →
              p = ⟨2, o.tail ||| 0x8000000000000000⟩ ∧ t.peek64 (localOf po + 24) = o.tail + 1 ∧
              ∀ pb, s1.qRing v true (o.slot o.tail) n = (s2, .ok [(pb, n)]) → s2.away pb = false → bs.length = n →
                (localOf pb + n ≤ localOf po + 24 ∨ localOf po + 32 ≤ localOf pb) →
                  memRead t.mem (localOf pb) n = bs.set 7 (bs.getD 7 0 ||| 0x80))))) ∧
    (∀ (v : Who) (got : List (Nat × List Byte)) (t : State) (pa : Nat) (bs : List Byte) (sc : Scope), memWf s.mem = true →
      s.qFind v true qh = (s1, .ok pa) → s.deq v got qh n true = (t, .ok (.entry bs sc)) →
        let q := qRead s1 pa
        q.tail ≠ q.head ∧ t.peek64 (localOf pa + 16) = q.head + 1 ∧ sc = scopeOf q.scope ∧
        ∀ pb, s1.qRing v false (q.slot q.head) n = (s2, .ok [(pb, n)]) → s2.away pb = false → bs = memRead s2.mem (localOf pb) n)

/-- 07 R186 to R188: LDF of a filled cell returns its value and acquires; of an empty one LDF waits, while the deferral buffer has room, or answers 7,
and LDF.nw answers 8; the deferral of a context whose cluster quiesces is withdrawn, and its wait is saved (13 R319). STF of an empty cell stores the
value, marks the cell full and gives every context that waits for it the value and the status OK and wakes it, oldest first, and a GWAIT deferred at
that address stays; of a full one it answers 1. FCLR empties a cell. The core's L1D keeps no line of the cell (11 R264). The answers are in the
registers in the instruction's own step, before its reply (the model's: entry 11). -/
def Obligations.FutureCells : Prop :=
  (∀ (s s0 s1 u s2 : State) (c : Nat) (w : Word32) (x : Ctx) (d a b : Reg) (pa : Nat), s.acts c w x → s2 = u.forget (coreOf c) pa 16 →
    let die := dieOfCluster (clusterOf c)
    let full := (s2.peek64 (localOf pa + 8)).getLsbD 0
    let value := ((s2.setReg x d (s2.peek64 (localOf pa))).setReg x (d + 1) 0).acquire (coreOf c) .pkg
    (s.cell (s.whoOf c x) { r := true, w := false, fut := true } (s.reg x a) = (s1, .ok pa) →
      s1.reach (coreOf c) (some (.ctx c)) false pa 16 = (u, true) →
      (s.lets c x (.ldf d a) [] false [a] →
        (full = true → exec (.ldf d a) s = value.replyTo c x) ∧
        (full = false → s2.deferRoom pa = true →
          let t := if s2.quiescing (clusterOf c) = true then s2 else { s2 with deferrals := s2.deferrals ++ [⟨c, pa⟩] }
          exec (.ldf d a) s = .next ((t.count (.die die x.region) 4 1).past c x (.waiting (.future d pa)))) ∧
        (full = false → s2.deferRoom pa = false → exec (.ldf d a) s = ((s2.setReg x (d + 1) 7).count (.die die x.region) 5 1).replyTo c x)) ∧
      (s.lets c x (.ldfNw d a) [] false [a] →
        (full = true → exec (.ldfNw d a) s = value.replyTo c x) ∧ (full = false → exec (.ldfNw d a) s = s2.answers c x (d + 1) 8))) ∧
    (s.lets c x (.stf d a b) [] false [a, b] → s.release c (some .pkg) = (s0, true) →
      s0.cell (s0.whoOf c x) { r := false, w := true, fut := true } (s.reg x a) = (s1, .ok pa) →
      s1.reach (coreOf c) (some (.ctx c)) true pa 16 = (u, true) →
        (full = true → exec (.stf d a b) s = s2.answers c x d 1) ∧
        (full = false → exec (.stf d a b) s = (s2.fill pa (s.reg x b)).1.answers c x d 0)) ∧
    (s.lets c x (.fclr d a) [] false [a] → s.cell (s.whoOf c x) { r := false, w := true, fut := true } (s.reg x a) = (s1, .ok pa) →
      s1.reach (coreOf c) (some (.ctx c)) true pa 16 = (u, true) →
        exec (.fclr d a) s = (s2.poke (localOf pa) (List.replicate 16 0)).answers c x d 0)) ∧
  (∀ (s : State) (pa : Nat) (v : Word), (s.peek64 (localOf pa + 8)).getLsbD 0 = false →
    let full := (s.poke64 (localOf pa) v).poke64 (localOf pa + 8) 1
    let t := { full with deferrals := s.deferrals.filter (fun q => !s.ldfAt pa q) }
    (s.fill pa v).1 = (s.deferrals.filter (s.ldfAt pa)).foldl (fun t q => t.answerLdf v q) t ∧
    (memWf s.mem = true → t.peek64 (localOf pa) = v ∧ t.peek64 (localOf pa + 8) = 1 ∧
      ∀ m, (m < localOf pa ∨ localOf pa + 16 ≤ m) → memByte t.mem m = memByte s.mem m) ∧
    (∀ q ∈ (s.fill pa v).1.deferrals, s.ldfAt pa q = false) ∧
    (∀ q ∈ s.deferrals, s.ldfAt pa q = false → q ∈ (s.fill pa v).1.deferrals) ∧
    ∀ q y d, s.ctx? q.ctx = some y → y.st = .waiting (.future d pa) → q.pa = pa → s.ldfAt pa q = true) ∧
  ∀ (t : State) (q : Deferral) (v : Word) (y : Ctx) (e : Reg), t.ctx? q.ctx = some y → y.st = .waiting (.future e q.pa) →
    t.answerLdf v q = ((((t.setReg y e v).setReg y (e + 1) 0).acquire (coreOf q.ctx) .pkg).wake q.ctx)

/-- 07 R189 to R191; 01 R18, R27: SPAWN and SPAWN.peer push a record on a crew's task queue, or answer FULL; SUSP writes the continuation back with
the next PC and leaves its context, SUSP.requeue pushes it on the crew's own queue, and END leaves for good, counting down its join cell. A record
pushed stands in the slot that was free, last of its lane; SUSP's record stands at its address. SUSP with its record in another device's scratchpad
sends it and waits for that device's answer with nothing else done (the model's: entry 63). An answer in wd stands there before the reply (the
model's: entry 11). -/
def Obligations.TasksSpawnSuspendAndEnd : Prop :=
  ∀ (s s1 s2 s3 : State) (c : Nat) (w : Word32) (x : Ctx) (d a b : Reg) (bs : List Byte), s.acts c w x →
    let va := s.reg x a
    let k := clusterOf c
    let push := fun (t : State) (n : Nat) => match t.tqPush n bs with
      | some u => u.answers c x d 0
      | none => t.answers c x d 1
    (s.lets c x (.spawn d a) [] false [a] → va.toNat % 64 = 0 → s.release c (some .crew) = (s1, true) → s1.readBytes c x va 64 = .ok (s2, bs) →
      exec (.spawn d a) s = push s2 k) ∧
    (∀ pa n off, s.lets c x (.spawnPeer d a b) [] false [a, b] → (s.reg x b).toNat < s.spansizeOf c → va.toNat % 64 = 0 →
      s.release c (some .pkg) = (s1, true) → s1.readBytes c x va 64 = .ok (s2, bs) →
      s2.xlate (s.whoOf c x) Need.element anyPlace (word (0xFF000000000000 + (s.reg x b).toNat * 0x800000)) = (s3, .ok pa) →
      s3.place pa = .pad n off → exec (.spawnPeer d a b) s = push s3 n) ∧
    (∀ (n : Nat) (r : List Byte) (t : State),
      let q := (s.cluster n).tq
      let p := field (recWord r 7) 2 0
      (q.qcap ≤ q.total ↔ s.tqPush n r = none) ∧
      (s.tqPush n r = some t → p < q.lanes.length →
        (t.cluster n).tq.lane p = ⟨if (q.lane p).count = 0 then q.free else (q.lane p).head, q.free, (q.lane p).count + 1⟩) ∧
      (s.tqPush n r = some t → memWf s.mem = true → r.length = 64 → q.free < q.qcap →
        memRead t.mem (tqSlot n q.qcap q.free) 64 = r ∧ ((q.lane p).count ≠ 0 → (q.lane p).tail ≠ q.free → q.free < 2 ^ 16 →
          t.peek (tqLink n q.qcap (q.lane p).tail) 2 = q.free))) ∧
    (∀ pa, s.lets c x (.susp d a) [] false [a] → va.toNat % 64 = 0 → s.release c (some .pkg) = (s1, true) →
      s1.checkPart (s1.whoOf c x) Need.put anyPlace va 64 = (s2, .ok pa) →
        let rcd := s2.backRecord x (x.pc + 4) false
        let put := fun (t : State) => (t.storePart (s2.whoOf c x) (coreOf c) pa (.store rcd)).1
        (s2.awayPad pa = false → exec (.susp d a) s = .next ((put (s2.setReg x d 0)).leave c x false)) ∧
        (s2.awayPad pa = true → exec (.susp d a) s =
          .next ((put s2).stays c w (.remote ⟨0, va, 1, pa, 0, [], [], .suspend d, false⟩))) ∧
        (∀ m off, s2.place pa = .pad m off → memWf s2.mem = true → memRead (put (s2.setReg x d 0)).mem (localOf pa) 64 = rcd)) ∧
    (s.lets c x (.suspRequeue d) [] false [] → s.release c (some .crew) = (s1, true) →
      exec (.suspRequeue d) s = match s1.tqPush k (s1.backRecord x (x.pc + 4) false) with
        | some t => .next ((t.setReg x d 0).leave c x false)
        | none => s1.answers c x d 1) ∧
    (s.lets c x .endTask [] false [] →
      let join := word ((s.contWord x).toNat / 2 ^ 16 * 256)
      (join = 0 → exec .endTask s = .next (s.leave c x true)) ∧
      (∀ pa, join ≠ 0 → s.release c (some .pkg) = (s1, true) → s1.checkPart (s1.whoOf c x) Need.step joinWant join 16 = (s2, .ok pa) →
        (∀ dev, s2.place pa ≠ .remote dev) → s2.reach (coreOf c) (some (.ctx c)) true pa 16 = (s3, true) →
          let old := s3.peek64 (localOf pa)
          exec .endTask s = .next (((((s3.forget (coreOf c) pa 16).poke64 (localOf pa) (old - 1)).joinWake x.region old (s3.peek64 (localOf pa + 8))).acquire
            (coreOf c) .pkg).leave c x true))) ∧
    (∀ (t : State) (ends : Bool), SMap.wf t.ctxs = true → (t.leave c x ends).ctx? c = none)

/-- 08 R193 to R204; 14 R329, R332: GLD of a resolved group asks every present member of another device that has a route and waits for its members;
GLDM counts on its tag, asks in the same way and stands among the gleans; GST writes the members of this device, asks those of other devices and
answers the skipped ranks once all are known; GARR counts an arrival and returns the phase it saw; GWAIT returns once the phase is not the token's,
and is deferred until then, where its cluster does not quiesce (13 R319). That the barrier step of GARR needs both rights of the descriptor's page is
the model's reading (entry 77). A member on a device without a route counts as failed, or is skipped (the model's: entry 70), and an answer in wd
stands there before the reply (entry 11). -/
def Obligations.GroupsAndBarriers : Prop :=
  (∀ (b : Barrier) (p : Nat), b.arrive p = if p ≤ b.arrived + 1 then (⟨b.phase + 1, 0⟩, true) else (⟨b.phase, b.arrived + 1⟩, false)) ∧
  ∀ (s s1 s2 : State) (c : Nat) (w : Word32) (x : Ctx) (d a b : Reg) (g : Group) (op : GleanOp), s.acts c w x →
    let ga := s.reg x a
    let n := coreOf c
    let plain := ga.toNat / 2 ^ 48 = 0 ∧ ga.toNat / 2 ^ 23 % 2 ^ 9 = 0
    let off := ga.toNat % 2 ^ 23
    let feats := if op = .addD then [4, 5] else [4]
    let deferring := fun (t u : State) => if t.quiescing (clusterOf c) = true then t else u
    let asks := fun (t : State) (k : DxlKind) (ms : List Member) => t.sendEach x off k (s1.reached ms)
    (s.resolve c x ga = .ok (s1, g) →
      (plain → off % 8 = 0 → s.lets c x (.gld d a op) feats false [a] →
        exec (.gld d a op) s = .next ((asks s1 (.gleanRead 8) (s1.unreadAway g.members [])).stays c w
          (.glean d op ga g.members (s1.unroutedReads g.members)))) ∧
      (plain → off % 64 = 0 → s.lets c x (.gldm d a b op) feats false [a, b] →
        let v := s.reg x b
        let dest := v.toNat % 2 ^ 23
        let t := v.toNat / 2 ^ 56
        v.toNat / 2 ^ 23 % 2 ^ 33 = 0 → t < 64 → dest % 64 = 0 → guardedIn (s1.cluster (clusterOf c)) dest 64 = none →
          ((s1.tag n t).count = 4095 → exec (.gldm d a b op) s = s1.answers c x d 0x106) ∧
          ((s1.tag n t).count ≠ 4095 →
            let s2 := asks (s1.setTag n t { s1.tag n t with count := (s1.tag n t).count + 1 }) (.gleanRead 64) (s1.unreadAway g.members [])
            exec (.gldm d a b op) s = State.answers { s2 with gldms := s2.gldms ++
              [⟨c, x.region, s1.spanOf c, op, ga, g.members, s1.unroutedReads g.members, clusterOf c, dest, t, x.level == .supervisor⟩] } c x d 0))) ∧
      (∀ z : AmoSize, plain → off % AmoSize.len z = 0 → s.lets c x (.gst d a b z) [4] false [a, b] →
        s1.release c (some (s1.groupScope c g)) = (s2, true) →
          let bs := leBytes (AmoSize.len z) (s.reg x b).toNat
          let away := g.members.filter (fun m => m.here && m.dev != s2.ctl.devid)
          let r := gstHere x.region (if ga.toNat / 2 ^ 32 % 2 ^ 16 = 0 then some (s2.spanOf c) else none) off bs
            (g.members.filter (fun m => m.here && m.dev == s2.ctl.devid)) s2
          let skipped := r.2 ++ (away.filter (fun m => !s2.routed m.dev)).map (·.rank)
          (s2.reached away = [] → exec (.gst d a b z) s = r.1.answers c x d (gstWord skipped)) ∧
          (s2.reached away ≠ [] → exec (.gst d a b z) s =
            .next ((r.1.sendEach x off (.gleanWrite bs) (s2.reached away)).past c x (.gst d (s2.reached away) skipped)))) ∧
      (off = 0 → g.desc = none →
        (∀ q, s.lets c x (.garr d a) [4] false [a] → g.members.any (fun m => m.here && m.dev == s1.ctl.devid && m.cluster == clusterOf c) = true →
          s1.release c (some (s1.groupScope c g)) = (s2, true) → s2.span? (s2.spanOf c) = some q →
            let r := (Barrier.mk q.phase q.arrived).arrive (g.members.filter (·.here)).length
            let s3 := (s2.setSpan { q with phase := r.1.phase, arrived := r.1.arrived }).setReg x d (word (q.phase.toNat % 2 ^ 56 * 256))
            exec (.garr d a) s = (if r.2 then s3.answerGroup none (s2.spanOf c) r.1.phase else s3).replyTo c x) ∧
        (∀ q, s.lets c x (.gwait d a b) [4] false [a, b] → s1.span? (s1.spanOf c) = some q →
          let token := (s.reg x b).toNat / 256
          (q.phase.toNat % 2 ^ 56 ≠ token → exec (.gwait d a b) s =
            ((s1.setReg x d (word (q.phase.toNat % 2 ^ 56 * 256))).acquire n (s1.groupScope c g)).replyTo c x) ∧
          (q.phase.toNat % 2 ^ 56 = token → s1.co.deferred0.length < 256 → exec (.gwait d a b) s =
            .next ((State.count (deferring s1 { s1 with co := { s1.co with deferred0 := s1.co.deferred0 ++ [⟨c, 0⟩] } })
              (.die (dieOfCluster (clusterOf c)) x.region) 4 1).past c x (.waiting (.phase d none (s1.spanOf c) token)))))) ∧
      (∀ (pa pb : Nat) (s3 u s4 : State), off = 0 → g.desc = some pa → s4 = u.forget n pa 64 →
        let va := (x.gtb &&& ~~~(63 : Word)) + word (64 * (ga.toNat / 2 ^ 32 % 2 ^ 16))
        let l := localOf pa
        (s.lets c x (.garr d a) [4] false [a] →
          g.members.any (fun m => m.here && m.dev == s1.ctl.devid && m.cluster == clusterOf c) = true →
          s1.release c (some (s1.groupScope c g)) = (s2, true) → s2.checkPart (s2.whoOf c x) Need.step hbmOnly va 64 = (s3, .ok pb) →
          s3.reach n (some (.ctx c)) true pa 64 = (u, true) →
            let phase := s4.peek64 (l + 24)
            let r := (Barrier.mk phase ((s4.peek64 (l + 32)).toNat % 2 ^ 11)).arrive (g.members.filter (·.here)).length
            let s5 := ((s4.poke64 (l + 24) r.1.phase).poke64 (l + 32) (word r.1.arrived)).setReg x d (word (phase.toNat % 2 ^ 56 * 256))
            exec (.garr d a) s = (if r.2 then s5.answerGroup (some pa) (s2.spanOf c) r.1.phase else s5).replyTo c x) ∧
        (s.lets c x (.gwait d a b) [4] false [a, b] →
          s1.checkPart (s1.whoOf c x) Need.load hbmOnly va 64 = (s3, .ok pb) → s3.reach n (some (.ctx c)) false pa 64 = (u, true) →
            let phase := (s4.peek64 (l + 24)).toNat % 2 ^ 56
            let token := (s.reg x b).toNat / 256
            (phase ≠ token → exec (.gwait d a b) s =
              ((s4.setReg x d (word (phase * 256))).acquire n (s4.groupScope c g)).replyTo c x) ∧
            (phase = token → s4.deferRoom pa = true → exec (.gwait d a b) s =
              .next ((State.count (deferring s4 { s4 with deferrals := s4.deferrals ++ [⟨c, pa⟩] }) (.die (dieOfCluster (clusterOf c)) x.region) 4 1).past
                c x (.waiting (.phase d (some pa) (s1.spanOf c) token)))) ∧
            (phase = token → s4.deferRoom pa = false → exec (.gwait d a b) s =
              ((s4.setReg x d 7).count (.die (dieOfCluster (clusterOf c)) x.region) 5 1).replyTo c x)))

/-- 08 R197, R198; 10 R248: the tree of an integer sum is the sum of the present members modulo 2^64, whatever their number and whichever are absent;
the trees of AND, OR and XOR are those of their bits in the same way; and VREDS.w gives the sum of the enabled lanes modulo 2^32. The 32-bit sum,
minimum and maximum are those of each lane; every tree, a floating-point one too, pairs its members level by level as R198 does, with the combination
and the identity of R197. 02 R49, R50, R54; 06 R141: what floating point gives is an exact value rounded once: no code of the format lies nearer to
it, or between it and zero, or on its other side, as the mode says, a tie goes to the even code, and NX says whether it moved; a sum, a product and a
fused product are exact before that; and GroupSum adds the exact sum of 16 products, with its scales, in one rounding. -/
def Obligations.IntegerTreesAreSums : Prop :=
  (∀ v : List (Option Word), v.length ≤ 1024 →
    let lanes := fun (i : Nat) => (v.filterMap id).map (fun w => w.extractLsb' (32 * i) 32)
    ∀ i, i < 2 →
      (gleanTree .addW 11 v).extractLsb' (32 * i) 32 = (lanes i).foldl (· + ·) 0 ∧
      (gleanTree .minW 11 v).extractLsb' (32 * i) 32 = (lanes i).foldl (fun p q => if p.toInt ≤ q.toInt then p else q) 0x7FFFFFFF ∧
      (gleanTree .maxW 11 v).extractLsb' (32 * i) 32 = (lanes i).foldl (fun p q => if p.toInt ≤ q.toInt then q else p) 0x80000000) ∧
  (∀ (op : GleanOp) (n : Nat) (v : List (Option Word)),
    let node := fun (p q : Option Word) => match p, q with
      | none, _ => q
      | some _, none => p
      | some y, some z => some (gleanCombine op y z)
    (v.length ≤ 1 → gleanTree op n v = ((v.headD none).getD (gleanIdentity op))) ∧
    (2 ≤ v.length → gleanTree op (n + 1) v = gleanTree op n ((List.range ((v.length + 1) / 2)).map (fun i =>
      if 2 * i + 1 = v.length then v.getD (2 * i) none else node (v.getD (2 * i) none) (v.getD (2 * i + 1) none))))) ∧
  (∀ p q : Word,
    let both := fun (f : Nat → Nat → Nat) => word (f (field p 31 0) (field q 31 0) % 2 ^ 32 + f (field p 63 32) (field q 63 32) % 2 ^ 32 * 2 ^ 32)
    gleanCombine .addS p q = both (fun y z => (fp32.addOp 0 y z).1) ∧ gleanCombine .addD p q = word (fp64.addOp 0 p.toNat q.toNat).1 ∧
    gleanCombine .minS p q = both (fun y z => (fp32.minMax false y z).1) ∧ gleanCombine .maxS p q = both (fun y z => (fp32.minMax true y z).1) ∧
    gleanIdentity .addS = 0 ∧ gleanIdentity .addD = 0 ∧ gleanIdentity .minS = 0x7F8000007F800000 ∧ gleanIdentity .maxS = 0xFF800000FF800000) ∧
  (∀ (f : Fmt) (rm : Nat) (sg : Bool) (m : Nat) (e : Int), f ∈ [fp64, fp32, bf16, fp16, e5m2, e4m3, fp4] → rm < 4 →
    let q := min e (1 - (f.bias : Int) - f.fbits)
    let x := scaled sg m e q
    let r := f.round rm (.fin sg m e)
    let tooBig := r.2.testBit 2
    let of_ := fun (c : Nat) => match f.decode c with
      | .fin t n g => some (scaled t n g q)
      | .nan => none
      | .inf _ => none
    (tooBig = true → ∀ c y, of_ c = some y → y.natAbs < x.natAbs) ∧
    (tooBig = false → ∃ y, of_ r.1 = some y ∧ (r.2.testBit 0 = true ↔ y ≠ x) ∧
      ∀ c z, of_ c = some z →
        (rm = 0 → (x - y).natAbs ≤ (x - z).natAbs ∧ ((x - y).natAbs = (x - z).natAbs → z = y ∨ r.1 % 2 = 0)) ∧
        (rm = 1 → y.natAbs ≤ x.natAbs ∧ (z.natAbs ≤ x.natAbs → z.natAbs ≤ y.natAbs)) ∧
        (rm = 2 → x ≤ y ∧ (x ≤ z → y ≤ z)) ∧ (rm = 3 → y ≤ x ∧ (z ≤ x → z ≤ y)))) ∧
  (∀ (f : Fmt) (rm a b c : Nat) (s t u : Bool) (m n o : Nat) (e g h : Int),
    f.decode a = .fin s m e → f.decode b = .fin t n g → f.decode c = .fin u o h →
      (∃ z k i, (f.addOp rm a b).1 = (f.round rm (.fin z k i)).1 ∧ ∀ q, q ≤ i → q ≤ e → q ≤ g → scaled z k i q = scaled s m e q + scaled t n g q) ∧
      (f.mulOp rm a b).1 = (f.round rm (.fin (s != t) (m * n) (e + g))).1 ∧
      (∃ z k i, (f.fmaOp rm a b c).1 = (f.round rm (.fin z k i)).1 ∧
        ∀ q, q ≤ i → q ≤ e + g → q ≤ h → scaled z k i q = scaled (s != t) (m * n) (e + g) q + scaled u o h q)) ∧
  (∀ (l : List (List XVal)) (grp fuel acc : Nat) (sa sb : Nat → XVal) (q : Int), l ≠ [] → q ≤ 0 →
    (∀ y ∈ (l.take 16).flatten, ∃ s m e, y = .fin s m e ∧ q ≤ e) →
      ∃ s m e, q ≤ e ∧ scaled s m e q = ((l.take 16).flatten.map (fun y => match y with
          | .fin s m e => scaled s m e q
          | .nan => 0
          | .inf _ => 0)).sum ∧
        groupSum l grp sa sb (fuel + 1) acc = groupSum (l.drop 16) (grp + 1) sa sb fuel
          (fp32.round 0 (XVal.add 0 (fp32.decode acc) (((XVal.fin s m e).mul (sa grp)).1.mul (sb grp)).1).1).1) ∧
  (∀ v : List (Option Word), v.length ≤ 1024 →
    let present := v.filterMap id
    gleanTree .addL 11 v = present.foldl (· + ·) 0 ∧ gleanTree .and 11 v = present.foldl (· &&& ·) (BitVec.allOnes 64) ∧
    gleanTree .or 11 v = present.foldl (· ||| ·) 0 ∧ gleanTree .xor 11 v = present.foldl (· ^^^ ·) 0) ∧
  ∀ (mask : BitVec 128) (v : List Word32), v.length = 128 →
    laneTree (· + ·) 0 7 (presentLanes mask 0 v) = ((List.range 128).map (fun n => if mask.getLsbD n then v.getD n 0 else 0)).foldl (· + ·) 0

/-- 08 R199: a GLD whose every present member has been read ends: with the tree of the values, or, where a member failed, with GLEAN_MEMBER, whose
DETAIL and MRANK are those of the lowest failing rank. -/
def Obligations.GleanLoadsEnd : Prop :=
  ∀ (s : State) (c : Nat) (x : Ctx) (d : Reg) (op : GleanOp) (ga : Word) (ms : List Member) (got : List MemberRead) (r : Reply),
    s.ctx? c = some x → x.st = .glean d op ga ms got → s.unreadAway ms got = [] → s.unreadHere ms got = [] →
      ((∀ g ∈ got, g.failed = none) → exec (.memoryReply c r) s =
        .next (((((s.setReg x d (gleanValue op ms got 0)).acquire (coreOf c) (s.groupScope c ⟨none, ms⟩)).dropWaits c).past c x .idle).wake c)) ∧
      (∀ g k, g ∈ got → g.failed = some k → (∀ q ∈ got, q.failed.isSome = true → g.rank < q.rank ∨ q = g) →
        exec (.memoryReply c r) s = .next (takeTrap (s.dropWaits c) c x ⟨15, ga, k, 0, false, g.rank⟩ x.iw))

/-- 08 R205 to R208, R211: EVSEND releases and sends its bits; WAIT consumes the bits under its mask or waits for them; YIELD is in flight for 8
s-cycles and its delay, 65,535 at most; RDSR and WRSR read and write a system register by the map of R208 and 01 R30, of which FCSR keeps bits [6:0],
TVBASE clears [1:0] and ASID keeps 16; NOP changes nothing. Bits sent to a bound context of the sender's region are ORed into its EVENTS; a WAIT whose
mask they meet returns the bits under it, which leave EVENTS; no other context changes, and bits for a context of another region change none. -/
def Obligations.SystemInstructions : Prop :=
  (∀ (s : State) (region n : Nat) (bits : Word) (y : Ctx), s.ctx? n = some y →
    let t := s.sendBits region n bits
    (y.region ≠ region → t.ctxs = s.ctxs) ∧
    (y.region = region → (∀ m, m ≠ n → t.ctx? m = s.ctx? m) ∧
      ((∀ d mask, y.st ≠ .waiting (.event d mask)) → t.ctx? n = some { y with events := y.events ||| bits }) ∧
      ∀ d mask, y.st = .waiting (.event d mask) →
        ((y.events ||| bits) &&& mask = 0 → t.ctx? n = some { y with events := y.events ||| bits }) ∧
        ((y.events ||| bits) &&& mask ≠ 0 → t.ctx? n = some { y with events := (y.events ||| bits) &&& ~~~mask, st := .idle, mark := none } ∧
          (d ≠ 0 → memWf s.mem = true → t.peek64 (y.wp.toNat + 8 * d.toNat) = (y.events ||| bits) &&& mask)))) ∧
  ∀ (s s1 : State) (c : Nat) (w : Word32) (x : Ctx) (d a b : Reg) (r : SysReg), s.acts c w x →
    (s.lets c x (.evsend a b) [] false [a, b] → (s.reg x a).toNat < 2 ^ 16 → s.release c (some .pkg) = (s1, true) →
      exec (.evsend a b) s = (s1.sendBits x.region (s.reg x a).toNat (s.reg x b)).replyTo c x) ∧
    (s.lets c x (.wait d a) [] false [a] →
      let mask := s.reg x a
      (mask = 0 → exec (.wait d a) s = .next (s.gives c x d 0)) ∧
      (mask ≠ 0 → x.events &&& mask = 0 → exec (.wait d a) s = .next (s.past c x (.waiting (.event d mask)))) ∧
      (mask ≠ 0 → x.events &&& mask ≠ 0 → exec (.wait d a) s =
        .next ((((s.setCtx c { x with events := x.events &&& ~~~mask }).setReg x d (x.events &&& mask)).acquire (coreOf c) .pkg).past c x .idle))) ∧
    (s.lets c x (.yield a) [] false [a] →
      exec (.yield a) s = .next (s.past c x (.yielding (s.now + 8 + Nat.min (s.reg x a).toNat 65535)))) ∧
    (s.lets c x (.rdsr d r) [] r.supervisor [] → exec (.rdsr d r) s = .next (s.gives c x d (s.sysRead c x r))) ∧
    (let read := s.sysRead c x
     let k := c / 64 / 4
     let crew := (s.crew? k).getD (0, 0)
     read .fcsr = x.fcsr ∧ read .events = x.events ∧ read .wp = x.wp ∧ read .ctxid = word c ∧ read .core = word (c / 64) ∧
     read .cluster = word k ∧ read .crew = word (crew.1 % 2 ^ 24 * 256 + crew.2) ∧ read .rank = word crew.2 ∧
     read .spansize = word (s.spanSize crew.1) ∧ read .region = word (x.region % 2 ^ 32) ∧ read .feat = s.feat (k / 64) ∧
     read .cycle = s.cycle.getD (k / 64) 0 ∧ read .stepping = s.ctl.stepping.setWidth 64 ∧ read .trappc = x.trappc ∧
     read .trapinfo = x.trapinfo ∧ read .trapaddr = x.trapaddr ∧ read .tvbase = x.tvbase ∧ read .asid = x.asid.setWidth 64 ∧
     read .dtb = x.dtb ∧ read .gtb = x.gtb) ∧
    (s.lets c x (.wrsr a r) [] r.supervisor [a] → exec (.wrsr a r) s = .next ((s.setCtx c (sysWrite x r (s.reg x a))).past c x .idle)) ∧
    (∀ v : Word, sysWrite x .fcsr v = { x with fcsr := v &&& 0x7F } ∧ sysWrite x .tvbase v = { x with tvbase := v &&& ~~~3 } ∧
      sysWrite x .asid v = { x with asid := v.setWidth 16 } ∧ sysWrite x .trappc v = { x with trappc := v } ∧
      sysWrite x .trapinfo v = { x with trapinfo := v } ∧ sysWrite x .trapaddr v = { x with trapaddr := v } ∧
      sysWrite x .dtb v = { x with dtb := v } ∧ sysWrite x .gtb v = { x with gtb := v }) ∧
    (s.lets c x .nop [] false [] → exec .nop s = .next (s.past c x .idle))

/-- 08 R209, 01 R32, 13 R309: TRAP at supervisor level, away from TVBASE, sets TRAPPC to its own PC, TRAPINFO to its word and code 18, and TRAPADDR to
0, and goes on at TVBASE; nothing else changes, where no other device keeps a part of a write of the context (entry 63). At user level it is
dispatched to the region's fault queue. -/
def Obligations.TrapTakesItsException : Prop :=
  ∀ (s : State) (c : Nat) (w : Word32) (x : Ctx) (n : BitVec 5), s.acts c w x → s.lets c x (.trap n) [] false [] →
    (x.level = .supervisor → x.pc ≠ x.tvbase →
      let y := { x with trappc := x.pc, trapinfo := word (w.toNat + 18 * 2 ^ 32), trapaddr := 0, pc := x.tvbase, st := .idle, got := [],
                        granted := [], mark := none }
      exec (.trap n) s = .next ((s.fails c).setCtx c y) ∧ (x.granted = [] → (s.fails c).setCtx c y = s.setCtx c y)) ∧
    (x.level = .user → exec (.trap n) s = .next ((s.fails c).dispatch c x ⟨18, 0, 0, 0, false, 0⟩ w false))

/-- 08 R210: ERET is supervisor-only, and at user level it faults PRIV; it sets the next PC to TRAPPC with bits [1:0] cleared; the level and the three
trap registers stay. -/
def Obligations.EretReturns : Prop :=
  ∀ (s : State) (c : Nat) (w : Word32) (x : Ctx), s.acts c w x →
    (x.level = .user → exec .eret s = s.faults c x (flt .priv x.pc) w) ∧
    (s.lets c x .eret [] true [] → exec .eret s = .next (s.setCtx c { x with pc := x.trappc &&& ~~~3, st := .idle, got := [], mark := none }))

/-- 01 R18, R32; 13 R311, R312, R316: a fault of a supervisor away from TVBASE writes its trap registers and its PC, and nothing else of the machine;
a fault of a user context is dispatched; one of a supervisor at TVBASE is a double fault: it binds no handler, and its crew is frozen. A dispatch
releases at PKG, writes its record to the fault queue, gives up its context and queues the handler's bind; a FULL queue is tried again after 4,096
s-cycles. That it waits first for room in the FIFO of 256 handler binds is the model's reading (entry 66), and so are the messages by which a fault
gives up what other devices have agreed to take for its instruction's write (entry 63). -/
def Obligations.TakingAFault : Prop :=
  ∀ (s : State) (c : Nat) (x : Ctx) (f : FaultInfo) (w : Word32), s.ctx? c = some x →
    (x.level = .supervisor → x.pc ≠ x.tvbase →
      (takeTrap s c x f w).ctx? c =
        some { x with trappc := x.pc, trapinfo := trapInfo f w, trapaddr := f.addr, pc := x.tvbase, st := .idle, got := [], granted := [], mark := none } ∧
      (∀ n, n ≠ c → (takeTrap s c x f w).ctx? n = s.ctx? n) ∧
      { takeTrap s c x f w with ctxs := s.ctxs } = { s with io := { s.io with sent := s.io.sent ++ x.granted.map (fun p =>
        ⟨p.1 / Config.localEnd, x.region % 2 ^ 32, true, true, p.1 % Config.localEnd, .forgo p.2⟩) } }) ∧
    (x.level = .user → takeTrap s c x f w = (s.fails c).dispatch c x f w false) ∧
    (x.level = .supervisor → x.pc = x.tvbase → takeTrap s c x f w = ((s.fails c).dispatch c x f w true).freezeCrew (clusterOf c)) ∧
    (x.granted = [] → s.fails c = s.setCtx c { x with mark := none }) ∧
    ((s.cluster (clusterOf c)).handlers.length ≥ 256 →
      s.dispatch c x f w false = s.modCtx c (fun y => { y with st := .waiting (.dispatch f w s.now false), mark := some (s.issuedAt c) })) ∧
    (∀ s1 : State, (s.cluster (clusterOf c)).handlers.length < 256 → s.release c (some .pkg) = (s1, true) →
      (∀ (s2 : State) (pos : Word), s1.faultEnq (s1.whoOf c x) (s.backRecord x x.pc true) = (s2, .done pos) →
        s.dispatch c x f w false = ((s2.countRecord (clusterOf c)).leave c x false).queueHandler (clusterOf c)
          ⟨some c, pos, x.pc, trapInfo f w, f.addr⟩) ∧
      (∀ s2 : State, s1.faultEnq (s1.whoOf c x) (s.backRecord x x.pc true) = (s2, .full) →
        s.dispatch c x f w false = s2.modCtx c (fun y => { y with st := .waiting (.dispatch f w (s.now + 4096) true), mark := some (s.issuedAt c) })))

/-- 04 R93: a word that decodes to no instruction takes ILLEGAL at its PC; a fetch that fails takes its fault with TRAPADDR the PC and a zero word; a
bundle that cannot be decoded faults its unit. Before the own effect of every swarm instruction, fields that are not defined fault ILLEGAL; then a
feature of its group that the die has not faults FEATABSENT (15 R349, R350); then user level faults PRIV where only a supervisor may run it; each with
the PC as its address. The zero word of a fetch fault is the model's reading (entry 49), and so is the head that a bundle's fault names (entry 50). -/
def Obligations.WhatFaultsBeforeItsEffect : Prop :=
  (∀ (s : State) (c : Nat) (w v : Word32) (x : Ctx), s.acts c v x → (∀ i, ¬ reads w i) →
    exec (.illegalWord w) s = s.faults c x (flt .illegal x.pc) w) ∧
  (∀ (s s1 : State) (c : Nat) (w : Word32) (x : Ctx) (f : FaultInfo), s.acts c w x → s.fetch c x = (s1, .failed f) →
    f.addr = x.pc ∧ exec .fetchFault s = (s1.dropWaits c).faults c x f 0) ∧
  (∀ (s : State) (k : Nat) (u : MxUnit) (ph : Phase) (n head : Nat) (f : FaultInfo), s.actor = .mx k u ph n →
    (s.mx k u).fetch = .error (head, f) → exec .illegalBundle s = .next (s.mxFault k u head f)) ∧
  ∀ (s : State) (c : Nat) (w : Word32) (x : Ctx) (i : Instr), s.acts c w x → (encodeSwarm i).isSome = true →
    let has := fun (b : Nat) => (s.feat (dieOfCluster (clusterOf c))).getLsbD b
    (¬ i.WellFormed → exec i s = s.faults c x ⟨1, x.pc, 0, 0, false, 0⟩ w) ∧
    (i.WellFormed → (∃ b ∈ (swarmNeeds i).1, has b = false) → exec i s = s.faults c x ⟨13, x.pc, 0, 0, false, 0⟩ w) ∧
    (i.WellFormed → (∀ b ∈ (swarmNeeds i).1, has b = true) → (swarmNeeds i).2 = true → x.level = .user →
      exec i s = s.faults c x ⟨2, x.pc, 0, 0, false, 0⟩ w)

/-- 10 R228, R229, R244 to R252, R255: a lane op, a compare, a reduction or a scalar op queues one write for its register, which lands L bundles later
with the value of each enabled lane, and changes nothing else; the check pass of its bundle changes nothing at all where no register that it reads has
an error. -/
def Obligations.MxVectorAndScalarOps : Prop :=
  ∀ (i : Instr) (s : State) (k : Nat) (u : MxUnit) (head : Nat),
    let m := s.mx k u
    (∀ f : LaneForm, laneForm m i = some f → m.full → s.performs k u head i →
      ∃ vals : List Word32, exec i s = .next (s.later k u f.lat (.v f.v.toNat (m.enabled f.p) vals)) ∧ vals.length = 128 ∧
        ∀ n, n < 128 → (m.enabled f.p).getLsbD n = true → vals.getD n 0 = f.f n) ∧
    (∀ d v, scalarForm m i = some (d, v) → s.performs k u head i → exec i s = .next (s.later k u 1 (.s d.toNat v))) ∧
    (∀ d a p g e, reduceForm i = some (d, a, p, g, e) → s.performs k u head i →
      exec i s = .next (s.later k u 6 (.s d.toNat (laneTree g e 7 (presentLanes (m.enabled p) 0 (m.vlanes a)))))) ∧
    (∀ q a b cc kd p, i = .vcmp q a b cc kd p → m.full → s.performs k u head i →
      ∃ val : BitVec 128, exec i s = .next (s.later k u 2 (.p q.toNat (m.enabled p) val)) ∧
        ∀ n, n < 128 → val.getLsbD n = cmpLane cc kd (m.ln a n) (m.ln b n)) ∧
    ((laneForm m i).isSome = true ∨ (scalarForm m i).isSome = true ∨ (reduceForm i).isSome = true → i.WellFormed → s.intact k u i →
      s.actor = .mx k u .check head → exec i s = .next s) ∧
    (∀ L r, { s.later k u L r with clusters := s.clusters } = s ∧
      ((s.later k u L r).mx k u).pend = m.pend ++ [⟨m.count + L, r⟩])

/-- 10 R249, R252: VLD reads the element of each enabled lane at an aligned address within the scratchpad, and VST writes those elements and no other
byte; SLD and SST read and write four bytes. -/
def Obligations.MxVectorAndScalarMemory : Prop :=
  ∀ (s : State) (k : Nat) (u : MxUnit) (head : Nat) (v sa : Reg) (disp : BitVec 32) (p : Option (BitVec 3)),
    let m := s.mx k u
    let o := (m.sreg sa + disp).toNat
    let at_ := fun (n : Nat) => padAddr k o + n
    (∀ f : VldMode, s.performs k u head (.vld v sa disp f p) → o % vldSize f = 0 → o + 128 * vldSize f ≤ 0x800000 →
      s.laneReadBad k o (m.enabled p) (vldSize f) = [] →
        ∃ vals : List Word32, exec (.vld v sa disp f p) s = .next (s.later k u 4 (.v v.toNat (m.enabled p) vals)) ∧ vals.length = 128 ∧
          ∀ n, n < 128 → (m.enabled p).getLsbD n = true →
            vals.getD n 0 = vldLane f (leNat (memRead s.mem (at_ (vldSize f * n)) (vldSize f)))) ∧
    (∀ f : VstMode, s.performs k u head (.vst v sa disp f p) → memWf s.mem = true → m.full → o % vstSize f = 0 →
      o + 128 * vstSize f ≤ 0x800000 → guardedLanes (s.cluster k) (m.enabled p) (vstSize f) 128 0 o = none →
      s.laneWriteBad k o (m.enabled p) (vstSize f) = [] →
        ∃ t : State, exec (.vst v sa disp f p) s = .next t ∧
          (∀ n, n < 128 → (m.enabled p).getLsbD n = true →
            memRead t.mem (at_ (vstSize f * n)) (vstSize f) = leBytes (vstSize f) (vstCode f (m.ln v n))) ∧
          (∀ a, (∀ n, n < 128 → (m.enabled p).getLsbD n = true → a < at_ (vstSize f * n) ∨ at_ (vstSize f * n + vstSize f) ≤ a) →
            memByte t.mem a = memByte s.mem a) ∧
          { t with mem := s.mem, bad := s.bad } = s) ∧
    (s.performs k u head (.sld v sa disp) → o % 4 = 0 → o + 4 ≤ 0x800000 → s.laneReadBad k o 1 4 = [] →
      let t := s.later k u 1 (.s v.toNat (BitVec.ofNat 32 (leNat (memRead s.mem (at_ 0) 4))))
      exec (.sld v sa disp) s = .next (t.setMx k u { t.mx k u with sldFree := s.mnow + 6 })) ∧
    (s.performs k u head (.sst v sa disp) → o % 4 = 0 → o + 4 ≤ 0x800000 → guardedIn (s.cluster k) o 4 = none → s.laneWriteBad k o 1 4 = [] →
      exec (.sst v sa disp) s = .next (s.poke (at_ 0) (leBytes 4 (m.sreg v).toNat)))

/-- 10 R230, R231, R237 to R243: an M op whose operands pass their checks is put in flight for its busy time with the registers it reads and writes
and its result; WDROP empties its slot for the next bundle, and BTOPK writes its bitmap. An element of a product is the old one plus the integer sum
of the products along K modulo 2^32 (02 R57), or GroupSum of them (R54), where a masked row gives +0; CSTORE stores each element in its place of the
layout, as its bits, converted and scaled, saturated, or in a BX block (02 R44, R48, R51, R52; 03 R63 to R68); a bit of BTOPK's bitmap is set for a
brick with fewer than k better ones in its row. The place of the lost mark among the checks, the bytes that a read under a block mask or of masked
rows does not fetch, FILL of a CSTORE and CLOAD of a masked view are the model's own (entry 64), as is WDROP's landing (entry 51). -/
def Obligations.MxMatrixOps : Prop :=
  (∀ (s : State) (k : Nat) (u : MxUnit) (head : Nat) (c : BitVec 3) (h : BitVec 4) (t : TileReg) (b : BitVec 2) (v sb : Reg) (disp : BitVec 32)
    (x y : TileIn),
    let m := s.mx k u
    let a := m.creg c
    let o := (m.sreg sb + disp).toNat
    let row := (m.sreg sb).toNat
    let streams := fun (acc : Option Acc) =>
      let S := streamTime x.hdr y.hdr
      let lost := s.mmaBad k t x y
      let s1 := s.fly k u head [.h h, t] [.c c] (S + 24) (.acc c.toNat (mmaResult x y acc lost)) lost
      (s1.setMx k u { s1.mx k u with arrayFree := s.mnow + S }).count (.cluster k) 10 S
    (s.performs k u head (.mma c h t) → s.mmaIn k m h t (some a) = .ok (x, y) → exec (.mma c h t) s = .next (streams (some a))) ∧
    (s.performs k u head (.mmaz c h t) → s.mmaIn k m h t none = .ok (x, y) → exec (.mmaz c h t) s = .next (streams none)) ∧
    (s.performs k u head (.wload b h) → s.tileIn k m (.h h) 0 = .ok x → hExtent x.hdr ≤ 0x40000 →
      exec (.wload b h) s = .next (s.fly k u head [.h h] [.b b] (ceilDiv (hExtent x.hdr) 256 + 8)
        (.slot b.toNat ⟨x.off, x.hdr, memCells 0 (s.padRead k x.off (hExtent x.hdr)), hExtent x.hdr, s.slotBad k x⟩) (s.slotBad k x))) ∧
    (s.performs k u head (.wdrop b) → exec (.wdrop b) s = .next (s.later k u 1 (.b b.toNat none))) ∧
    (∀ (e : BitVec 8) (r n : BitVec 7), s.performs k u head (.czero c e r n) → (e = 1 ∨ e = 0x30) →
      exec (.czero c e r n) s = .next (s.fly k u head [] [.c c] 4 (.acc c.toNat
        ⟨resultHdr e.toNat (r.toNat + 1) (n.toNat + 1) none, 0, List.replicate (r.toNat + 1) (List.replicate (n.toNat + 1) 0), false⟩) false)) ∧
    (s.performs k u head (.cload c h) → s.tileIn k m (.h h) 0 = .ok x → cloadOk x.hdr = true →
      exec (.cload c h) s = .next (s.fly k u head [.h h] [.c c] (ceilDiv (4 * hRows x.hdr * hCols x.hdr) 256 + 8)
        (.acc c.toNat (cloadResult x)) x.bad)) ∧
    (∀ (e : BitVec 8) (ly : BitVec 2) (sl : BitVec 3) (sf : BitVec 2), s.performs k u head (.cstore c sb disp e ly sl sf) →
      s.cstoreCheck k a o e.toNat ly.toNat sl.toNat sf.toNat = none →
        let hd := storeHdr a e.toNat ly.toNat sl.toNat sf.toNat
        ∃ s1 : State, exec (.cstore c sb disp e ly sl sf) s = .next (s1.fly k u head [.c c] [] (ceilDiv (hExtent hd) 256 + 8)
            (.store o (hExtent hd) (memCells 32 (storeBytes a hd)) []) false) ∧
          s1.hdrAt (padAddr k o) = hd ∧ (s1.cluster k).guard (o / 256) = 1 ∧
          ∀ g, o / 256 < g → 256 * g < o + hExtent hd → (s1.cluster k).guard g = 2) ∧
    (accCheck a = none → row < hRows a.hdr → row < 256 →
      (s.performs k u head (.crow v c sb) → exec (.crow v c sb) s =
        .next ((s.later k u 4 (.v v.toNat (BitVec.allOnes 128) ((a.rows.getD row [] ++ List.replicate 128 0).take 128))).fly k u head
          [.c c] [] 2 .nothing false)) ∧
      (s.performs k u head (.cput c v sb) → exec (.cput c v sb) s =
        .next (s.fly k u head [] [.c c] 2 (.acc c.toNat (cputResult a row (m.vlanes v))) false))) ∧
    (accCheck a = none → s.performs k u head (.btopk v c sb disp) →
      let n := 32 * ceilDiv (ceilDiv (hBricks a.hdr) 8) 32
      o % 32 = 0 → o + n ≤ 0x800000 → guardedIn (s.cluster k) o n = none →
        exec (.btopk v c sb disp) s = .next (s.poke (padAddr k o) (brickMap a (m.sreg v).toNat)))) ∧
  (∀ (x y : TileIn) (acc : Option Acc) (lost : Bool) (i j : Nat), i < vRows x.hdr → j < vCols y.hdr →
    let r := ((mmaResult x y acc lost).rows.getD i []).getD j 0
    let old : Word32 := match acc with | some q => (q.rows.getD i []).getD j 0 | none => 0
    let K := vCols x.hdr
    let ints := pairKind (hElem x.hdr) = .int ∧ pairKind (hElem y.hdr) = .int
    let whole := fun (l : List XVal) => (l.map (fun v => match v with
      | .fin s m e => scaled s m e 0
      | .nan => 0
      | .inf _ => 0)).sum
    (inferFmt x.hdr y.hdr = .ok 0x30 → r = old + BitVec.ofInt 32 ((List.range K).map (fun k =>
      if x.valid i = true ∧ y.valid k = true then whole (x.values i k) * whole (y.values k j) else 0)).sum) ∧
    (inferFmt x.hdr y.hdr = .ok 1 → r = BitVec.ofNat 32 (groupSum ((List.range K).map (fun k =>
        if x.valid i = true ∧ y.valid k = true then ((x.values i k).map (fun p => (y.values k j).map (fun q =>
          if ints ∧ (p.mul q).1.isZero = true then .fin false 0 0 else (p.mul q).1))).flatten
        else [.fin false 0 0]))
      0 (fun g => hScaleOf x.hdr x.tile i (16 * g)) (fun g => hScaleOf y.hdr y.tile (16 * g) j) ((K + 15) / 16) old.toNat))) ∧
  (∀ (a : Acc) (e ly sl sf i j : Nat), (hEfmt a.hdr = 1 ∨ hEfmt a.hdr = 0x30) → storeOk (hEfmt a.hdr) e ly sl sf = true →
    a.rows.length = hRows a.hdr → (∀ r ∈ a.rows, r.length = hCols a.hdr) → hRows a.hdr ≤ 128 → hCols a.hdr ≤ 128 → i < hRows a.hdr → j < hCols a.hdr →
    let hd := storeHdr a e ly sl sf
    let bytes := leNat (storeBytes a hd)
    let raw := fun (i j : Nat) => (a.rows.getD i []).getD j 0
    let val := fun (i j : Nat) => fp32.decode (raw i j).toNat
    let line := fun (i j : Nat) => if ly = 1 then j else i
    let pos := fun (i j : Nat) => if ly = 1 then i else j
    let len := if ly = 1 then hRows a.hdr else hCols a.hdr
    let scale := fun (i j : Nat) => match sl with
      | 2 => i
      | 3 => j
      | 4 => line i j * ((len + 31) / 32) + pos i j / 32
      | 5 => line i j * ((len + 15) / 16) + pos i j / 16
      | _ => 0
    let X := bytes / 2 ^ (8 * (hBodyBytes hd + scale i j)) % 256
    let place := fun (w : Nat) => if ly = 2 then 8 * 32 * w * (i / 16 * ((hCols a.hdr + 15) / 16) + j / 16) + w * (16 * (i % 16) + j % 16)
      else 8 * hStride hd * line i j + w * pos i j
    (∀ f, hElem hd = .float f → bytes / 2 ^ place f.width % 2 ^ f.width =
      if f = fp32 then (raw i j).toNat else (f.round 0 (if sl = 0 then val i j else (val i j).shift (127 - (X : Int)))).1) ∧
    (∀ w sg, hElem hd = .int w sg → bytes / 2 ^ place w % 2 ^ w = if w = 32 then (raw i j).toNat else
      (BitVec.ofInt w (max (if sg = true then -(2 ^ (w - 1)) else 0) (min (if sg = true then 2 ^ (w - 1) - 1 else 2 ^ w - 1) (raw i j).toInt))).toNat) ∧
    (∀ f, hElem hd = .float f → sl ≠ 0 →
      let covers := fun (p q : Nat) => p < hRows a.hdr ∧ q < hCols a.hdr ∧ scale p q = scale i j
      let endless := ∃ p q s, covers p q ∧ val p q = .inf s
      let live := fun (p q : Nat) => covers p q ∧ (val p q).isZero = false ∧ val p q ≠ .nan
      (endless → X = 254) ∧ ((∀ p q, ¬ live p q) → X = 0) ∧
      (¬ endless → (∃ p q, live p q) → (∀ p q, live p q → (f.round 0 ((val p q).shift (127 - (X : Int)))).2.testBit 2 = false) ∧
        ∀ Y : Nat, Y < X → ∃ p q, live p q ∧ (f.round 0 ((val p q).shift (127 - (Y : Int)))).2.testBit 2 = true)) ∧
    (∀ m, hElem hd = .bx m →
      let cell := fun (t : Nat) => if ly = 1 then val t (line i j) else val (line i j) t
      let block := (List.range 32).map (fun t => if 32 * (pos i j / 32) + t < len then cell (32 * (pos i j / 32) + t) else .fin false 0 0)
      let enc := bxEncode m block
      bytes / 2 ^ (8 * (hStride hd * line i j + 4 * m * (pos i j / 32)) + m * (pos i j % 32)) % 2 ^ m =
          (BitVec.ofInt m (enc.2.getD (pos i j % 32) 0)).toNat ∧
        bytes / 2 ^ (8 * (hStride hd * line i j + 4 * m * ((len + 31) / 32) + pos i j / 32)) % 256 = enc.1)) ∧
  (∀ (m : Nat) (l : List XVal), 2 ≤ m → m ≤ 8 → l.length = 32 →
    let r := bxEncode m l
    let hi : Int := 2 ^ (m - 1) - 1
    let lo : Int := -(2 ^ (m - 1))
    r.1 ≤ 254 ∧ r.2.length = 32 ∧
    ∀ i, i < 32 →
      (l.getD i .nan = .nan → r.2.getD i 0 = 0) ∧ (∀ s, l.getD i .nan = .inf s → r.1 = 254 ∧ r.2.getD i 0 = if s = true then lo else hi) ∧
      ∀ s n e q, l.getD i .nan = .fin s n e → q ≤ e → q ≤ -127 - ((m : Int) - 2) →
        ∃ y, roundedInt 0 (scaled s n e q) (2 ^ ((r.1 : Int) - 127 - ((m : Int) - 2) - q).toNat) y ∧ r.2.getD i 0 = max lo (min hi y) ∧
          (r.1 < 254 → lo ≤ y ∧ y ≤ hi)) ∧
  bxEncode 4 (([0x40400000, 0xBFA00000, 0x3DCCCCCD, 0x40FCCCCD] ++ List.replicate 28 0).map fp32.decode) = (0x82, [2, -1, 0, 4] ++ List.replicate 28 0) ∧
  ∀ (a : Acc) (k : Nat), (∀ r ∈ a.rows, r.length = hCols a.hdr) → a.rows.length = hRows a.hdr → (hEfmt a.hdr = 1 ∨ hEfmt a.hdr = 0x30) →
    let cols := (hCols a.hdr + 15) / 16
    let valid := fun (i : Nat) => hMasked a.hdr = true → a.mask.getLsbD i = true
    let key := fun (i j : Nat) => scoreKey (hEfmt a.hdr) ((a.rows.getD i []).getD j 0)
    let inside := fun (q p i j : Nat) => i / 16 = q ∧ j / 16 = p ∧ i < hRows a.hdr ∧ j < hCols a.hdr ∧ valid i
    (∀ t, t < hBricks a.hdr → ((leNat (brickMap a k)).testBit t = true ↔
      ((List.range cols).filter (fun p => brickScore a (t / cols) (t % cols) < brickScore a (t / cols) p ||
        (brickScore a (t / cols) p == brickScore a (t / cols) (t % cols) && p < t % cols))).length < k)) ∧
    (∀ t, hBricks a.hdr ≤ t → (leNat (brickMap a k)).testBit t = false) ∧ (brickMap a k).length = 32 * ((hBricks a.hdr + 255) / 256) ∧
    (∀ q p, (∀ i j, inside q p i j → key i j ≤ brickScore a q p) ∧ ((∃ i j, inside q p i j) → ∃ i j, inside q p i j ∧ brickScore a q p = key i j) ∧
      ((¬ ∃ i j, inside q p i j) → ∀ x, brickScore a q p < scoreKey (hEfmt a.hdr) x)) ∧
    ∀ x y : Word32, (scoreKey 0x30 x ≤ scoreKey 0x30 y ↔ x.toInt ≤ y.toInt) ∧
      (scoreKey 1 x ≤ scoreKey 1 y ↔ fp32.decode x.toNat = .nan ∨ (fp32.decode x.toNat).atMost (fp32.decode y.toNat))

/-- 10 R234 to R236, R253, R254, R256; 09 R221: TAKE takes the oldest handle of the shelf into an empty register and its buffer is HELD; GIVE passes a
buffer to the other unit's shelf, by a request where that shelf has no room; HREL frees a buffer; BR, BRC and LOOP set MXPC; DRAIN and SNOP change
nothing; SIGNAL sends an event bit, as EVSEND does; HALT halts the unit, with an M op of its own bundle first to end. That an earlier M op ends first
is the model's reading of HALT (entry 29), and the request of a GIVE whose bundle waits is that of entry 51. -/
def Obligations.MxHandlesAndControl : Prop :=
  ∀ (s : State) (k : Nat) (u : MxUnit) (head : Nat) (h : BitVec 4) (d : Reg) (ln : BitVec 10) (bn : BitVec 5),
    let m := s.mx k u
    let o := MxUnit.other u
    let jump := fun (t : State) => t.setMx k u { t.mx k u with line := ln.toNat, bundle := bn.toNat }
    (∀ off l, s.performs k u head (.take h) → m.h.find? h.toNat = none → m.shelf = off :: l →
      (∀ g ∈ s.bad, ¬ (padAddr k off ≤ 8 * g ∧ 8 * g < padAddr k off + 32)) → mxHdrFault off 2 (s.hdrAt (padAddr k off)) = none →
        exec (.take h) s = .next (((s.setMx k u { m with shelf := l }).poke (padAddr k off + 3) [3]).later k u 1
          (.h h.toNat (some ⟨off, setField (s.hdrAt (padAddr k off)) 31 24 3⟩)))) ∧
    (∀ x, s.performs k u head (.give h) → m.h.find? h.toNat = some x →
      (m.giving = some true → exec (.give h) s = .next ((s.setMx k u { m with giving := none }).later k u 1 (.h h.toNat none))) ∧
      (m.giving = none → (s.mx k o).accepts = true → (s.mx k o).shelf.length < 32 → (s.mx k o).queue = [] →
        exec (.give h) s = .next ((s.giveStep k o x.off).later k u 1 (.h h.toNat none))) ∧
      (m.giving = none → (s.mx k o).accepts = true → (32 ≤ (s.mx k o).shelf.length ∨ (s.mx k o).queue ≠ []) →
        ∃ t : State, exec (.give h) s = .next t ∧ (t.mx k u).giving = some false ∧ (t.mx k o).shelf = (s.mx k o).shelf ∧
          (t.mx k o).queue = joinQueue ⟨x.off, .unit u, s.now⟩ (s.mx k o).queue ∧ t.mem = s.mem)) ∧
    (∀ x, s.performs k u head (.hrel h) → m.h.find? h.toNat = some x →
      exec (.hrel h) s = .next (((s.setCluster k ((s.cluster k).tagAll x.off (hExtent x.hdr) 0)).poke (padAddr k x.off + 3) [0]).later k u 1
        (.h h.toNat none))) ∧
    (s.performs k u head (.br ln bn) → exec (.br ln bn) s = .next (jump s)) ∧
    (∀ z : Bool, s.performs k u head (.brc d z ln bn) →
      exec (.brc d z ln bn) s = .next (if (m.sreg d = 0 ↔ z = true) then jump s else s)) ∧
    (s.performs k u head (.loop d ln bn) →
      let t := s.later k u 1 (.s d.toNat (m.sreg d - 1))
      exec (.loop d ln bn) s = .next (if m.sreg d = 1 then t else jump t)) ∧
    (s.performs k u head .drain → exec .drain s = .next s) ∧ (s.performs k u head .snop → exec .snop s = .next s) ∧
    (∀ bit : BitVec 6, s.performs k u head (.signal d bit) → (m.sreg d).toNat < 2 ^ 16 →
      exec (.signal d bit) s = .next (s.sendBits ((s.crewRegion? k).getD 0) (m.sreg d).toNat (1 <<< bit.toNat))) ∧
    (s.performs k u head .halt →
      (m.flight = [] → exec .halt s = .next (s.haltMx k u true)) ∧
      (m.flight ≠ [] → exec .halt s = .next (s.setMx k u { m with stopping := true })))

/-- 10 R226, R233; 13 R313: an op of a unit whose check fails faults the unit: it is FAULTED, nothing of the op is done, and a notice with its line,
bundle, count and head goes to the region's fault queue. Shown for VLD and SST at an address that is not aligned, TAKE of a full register, GIVE and
HREL of an empty one, CZERO of a format it has not, SIGNAL past the last CTXID, HDRF of a register with a lost mark, every op that reads a register
with an uncorrectable error (13 R317), and, with 03 R73, R80 to R84 and 10 R238 to R243, the header, role, conversion, row, range and guard checks of
MMA, MMAZ, WLOAD, CLOAD, CSTORE, CROW, CPUT, BTOPK and VST, in their order. That such a register is tested before an op's own checks is entry 64, and
the form of its fault that of a lost mark; the address and ACC of the others follow entry 50. -/
def Obligations.MxChecksFaultTheUnit : Prop :=
  ∀ (s : State) (k : Nat) (u : MxUnit) (head : Nat) (i : Instr) (f : FaultInfo) (d a : Reg) (disp : BitVec 32) (h : BitVec 4) (p : Option (BitVec 3)),
    let m := s.mx k u
    let o := (m.sreg a + disp).toNat
    let faulted := exec i s = .next ((s.setMx k u { m with st := .faulted }).postRecord k
        (noticeRecord (noticeBody k u m.line m.bundle m.count head false f) f) (some u))
    (s.actor = .mx k u .check head ∨ s.actor = .mx k u .alone head) →
    (i.WellFormed → (encodeOp i).isSome = true → (∃ r ∈ regReads i, r ∈ m.badRegs) → f = ⟨14, 0, 1, 0, false, 0⟩ → faulted) ∧
    (s.intact k u i → (i = .vld d a disp .x32 p ∧ o % 4 ≠ 0 ∧ f = ⟨3, word o, 0, 0, false, 0⟩ ∨
     i = .sst d a disp ∧ o % 4 ≠ 0 ∧ f = ⟨3, word o, 0, 1, false, 0⟩ ∨
     i = .take h ∧ (m.h.find? h.toNat).isSome = true ∧ f = ⟨12, 0, 3, 0, false, 0⟩ ∨
     (i = .give h ∨ i = .hrel h) ∧ m.h.find? h.toNat = none ∧ f = ⟨12, 0, 0, 0, false, 0⟩ ∨
     (∃ c e r n, i = .czero c e r n ∧ e ≠ 1 ∧ e ≠ 0x30 ∧ f = ⟨10, 0, 3, 0, false, 0⟩) ∨
     (∃ t fd, i = .hdrf d t fd ∧ m.isLost t = true ∧ f = ⟨14, 0, 1, 0, false, 0⟩) ∨
     (∃ bit, i = .signal d bit ∧ 2 ^ 16 ≤ (m.sreg d).toNat ∧ f = ⟨17, word (m.sreg d).toNat, 0, 0, false, 0⟩)) → faulted) ∧
    (s.intact k u i → i.WellFormed →
      (∀ (c : BitVec 3) (t : TileReg) (b : BitVec 2), (i = .mma c h t ∨ i = .mmaz c h t ∨ i = .wload b h ∨ i = .cload c h) →
        let acc := if i = .mma c h t then some (m.creg c) else none
        (m.h.find? h.toNat = none → f = ⟨12, 0, 0, 0, false, 0⟩ → faulted) ∧
        (∀ x code, m.h.find? h.toNat = some x → mxHdrFault x.off 3 x.hdr = some code → f = ⟨code.num, word x.off, 0, 0, false, 0⟩ → faulted) ∧
        (∀ x, s.tileIn k m (.h h) 0 = .ok x →
          (i = .wload b h → 0x40000 < hExtent x.hdr → f = ⟨10, word x.off, 0, 0, false, 0⟩ → faulted) ∧
          (i = .cload c h → cloadOk x.hdr = false → f = ⟨10, word x.off, 0, 0, false, 0⟩ → faulted) ∧
          ((i = .mma c h t ∨ i = .mmaz c h t) →
            (s.tileIn k m t 1 = .error f → faulted) ∧
            (∀ y, s.tileIn k m t 1 = .ok y →
              (acc.bind accCheck = some f → faulted) ∧ (acc.bind accCheck = none → mmaShape x y acc = some f → faulted))))) ∧
      (∀ (c : BitVec 3) (v : Reg) (e : BitVec 8) (ly : BitVec 2) (sl : BitVec 3) (sf : BitVec 2),
        let cs := m.creg c
        let hd := storeHdr cs e.toNat ly.toNat sl.toNat sf.toNat
        let n := 32 * ceilDiv (ceilDiv (hBricks cs.hdr) 8) 32
        let row := (m.sreg a).toNat
        ((i = .cstore c a disp e ly sl sf ∨ i = .crow v c a ∨ i = .cput c v a ∨ i = .btopk v c a disp) → accCheck cs = some f → faulted) ∧
        (accCheck cs = none →
          (i = .cstore c a disp e ly sl sf →
            (o % 256 ≠ 0 → f = ⟨3, word o, 0, 1, false, 0⟩ → faulted) ∧
            (o % 256 = 0 → 0x800000 ≤ o → f = ⟨17, word o, 0, 1, false, 0⟩ → faulted) ∧
            (o % 256 = 0 → o < 0x800000 →
              (storeOk (hEfmt cs.hdr) e.toNat ly.toNat sl.toNat sf.toNat = false → f = ⟨10, word o, 3, 0, false, 0⟩ → faulted) ∧
              (storeOk (hEfmt cs.hdr) e.toNat ly.toNat sl.toNat sf.toNat = true →
                (0x800000 < o + hExtent hd → f = ⟨17, word o, 0, 1, false, 0⟩ → faulted) ∧
                (o + hExtent hd ≤ 0x800000 → (s.cluster k).granulesOwn o (hExtent hd) (s.ownResult k o) = false →
                  f = ⟨12, word o, 3, 0, false, 0⟩ → faulted)))) ∧
          ((i = .crow v c a ∨ i = .cput c v a) → (256 ≤ row ∨ hRows cs.hdr ≤ row) → f = ⟨17, word row, 0, 0, false, 0⟩ → faulted) ∧
          (i = .btopk v c a disp →
            (o % 32 ≠ 0 → f = ⟨3, word o, 0, 1, false, 0⟩ → faulted) ∧
            (o % 32 = 0 → 0x800000 < o + n → f = ⟨17, word o, 0, 1, false, 0⟩ → faulted) ∧
            (∀ b, o % 32 = 0 → o + n ≤ 0x800000 → guardedIn (s.cluster k) o n = some b → f = ⟨12, word b, 3, 1, false, 0⟩ → faulted)))) ∧
      (∀ g : VstMode, i = .vst d a disp g p →
        (o % vstSize g ≠ 0 → f = ⟨3, word o, 0, 1, false, 0⟩ → faulted) ∧
        (∀ b, o % vstSize g = 0 → o + 128 * vstSize g ≤ 0x800000 → guardedLanes (s.cluster k) (m.enabled p) (vstSize g) 128 0 o = some b →
          f = ⟨12, word b, 3, 1, false, 0⟩ → faulted)))

/-- 10 R229, R230, R233, R238, R241: PENDING_WRITE_LAND lands the due write of lowest landing bundle, the oldest of those; M_OP_COMPLETION takes the M
op that ends first, once its time is over, out of flight and leaves its result in its accumulator, its weight slot or its buffer. Where an
uncorrectable error has met it, the register is marked lost, or the CHECK of the header that it stored is made wrong, and a lost-result report that
names its bundle, with ECCUNCORR and LOST_MARK (bit 8 of dword 4), goes to the fault queue. That the report is posted in the completing step and binds
a handler is the model's reading (entry 51). -/
def Obligations.MxWritesLandAndOpsComplete : Prop :=
  (∀ (s : State) (k : Nat) (u : MxUnit) (pre post : List Pending) (p : Pending),
    (s.mx k u).pend = pre ++ p :: post → p.land ≤ (s.mx k u).count → (∀ q ∈ pre, p.land < q.land) → (∀ q ∈ post, p.land ≤ q.land) →
      exec (.pendingWriteLand k u) s = .next (s.setMx k u ({ s.mx k u with pend := pre ++ post }.land p.reg))) ∧
  (∀ (s : State) (k : Nat) (u : MxUnit) (i : Nat) (f : MFlight), (s.mx k u).nextDone s.mnow = some (i, f) → (s.mx k u).stopping = false →
    let s1 := s.setMx k u { s.mx k u with flight := dropAt (s.mx k u).flight i }
    let ends := fun (t : State) => exec (.mOpCompletion k u) s =
      .next (if f.lost then t.postRecord k (lostRecord k u (s.mx k u).count f) (some u) else t)
    (∀ n a, f.result = .acc n a → ends (s1.setMx k u { s1.mx k u with c := (s.mx k u).c.insert n { a with lost := a.lost || f.lost } })) ∧
    (∀ n b, f.result = .slot n b → ends (s1.setMx k u { s1.mx k u with b := (s.mx k u).b.insert n { b with lost := b.lost || f.lost } })) ∧
    (f.result = .nothing → ends s1) ∧
    ((s.crew? k).isSome = true → ∀ off n cells, f.result = .store off n cells [] →
      let t := s1.poke (padAddr k off + 32) (memRead cells 32 (n - 32))
      let h := t.hdrAt (padAddr k off)
      ends (if f.lost then t.pokeHdr (padAddr k off) (setField h 255 240 (65535 - hCheck h)) else t))) ∧
  (∀ (k : Nat) (u : MxUnit) (count : Nat) (f : MFlight), k < 256 →
    let b := (lostRecord k u count f).body
    (lostRecord k u count f).handler = true ∧ field (b.extractLsb' 0 64) 9 0 = f.line % 1024 ∧ field (b.extractLsb' 0 64) 14 10 = f.bundle % 32 ∧
      field (b.extractLsb' 0 64) 23 16 = k ∧ field (b.extractLsb' 64 64) 39 32 = 14 ∧ field (b.extractLsb' 256 64) 2 0 = f.head % 8 ∧
      (b.extractLsb' 256 64).getLsbD 8 = true) ∧
  ∀ (m : Mx) (now i : Nat) (f : MFlight), m.nextDone now = some (i, f) → m.flight[i]? = some f ∧ f.fin ≤ now ∧ ∀ g ∈ m.flight, f.fin ≤ g.fin

/-- 01 R9, 04 R93, 06 R128, R129, 11 R260, R261, R276, 14 R331, R333, R337, R338; 08 R207; 12 R298: what comes later. A reply ends an access; the
oldest entry of a line performs at its home slice when it can, and is dropped and logged where it meets an uncorrectable error; a yield ends at its
time; a fill puts the line in the core's I-cache; acknowledgements, answers, snoops and refetches take their entry away. A reply to an instruction
that is held changes nothing by itself: the instruction is made again (entry 12). That a reply carries its data or its fault is entry 9. These are the
model's choices too: the tests of a straddling write's parts, their answers, and that a part whose tests have passed cannot fail any more (entry 63);
SOURCE 4 of what the host refuses of an engine's posted write (entry 72) and the completion of a copy by its last acknowledgement (entry 41); that
misses joined to one fill all take its fault (entry 60); and the write of a ring entry, with the fault that its answer brings to its queue's step
(entry 16). -/
def Obligations.WhatComesLater : Prop :=
  ∀ (s s1 : State) (c n line : Nat) (x : Ctx),
    (∀ r, s.ctx? c = some x → (x.st = .reply ∨ x.st = .fetching) → exec (.memoryReply c r) s = .next (s.wake c)) ∧
    (∀ r, s.ctx? c = some x → x.st = .retry → exec (.memoryReply c r) s = .next s) ∧
    (∀ w : RemoteWait, s.ctx? c = some x → x.st = .remote w →
      let s2 := s.dropToken (coreOf c) c
      (∀ (v : BitVec 512) (sg : Bool), w.what = .load sg → w.acq = false → exec (.memoryReply c (.data v)) s =
        .next ((((s2.deliver c x w.d (.load sg) (w.pre ++ leBytes w.len v.toNat ++ w.post)).dropWaits c).past c x .idle).wake c)) ∧
      (∀ (r : Reply) (rest : List Nat), w.what = .written rest → exec (.memoryReply c r) s = .next (match rest with
        | [] => s2.wake c
        | pa :: l => s2.modCtx c (fun y => { y with st := .remote { w with pa := pa, what := .written l } }))) ∧
      (∀ (r : Reply) (n : Nat), w.what = .agree n → Reply.refuses r = false → exec (.memoryReply c r) s =
        .next (s2.setCtx c { x with granted := x.granted ++ [(w.pa, n)], st := .retry })) ∧
      (∀ code detail off : Nat, (∀ rest, w.what ≠ .written rest) →
        let traps := fun (f : FaultInfo) => exec (.memoryReply c (.fault code detail off)) s =
          .next (takeTrap ((s2.forgetProt (s2.whoOf c x) f).dropWaits c) c x f x.iw)
        (s.place w.pa ≠ .host → (∀ l, w.what ≠ .fetchLine l) → code ≠ 14 →
          traps ⟨code, w.va + word w.pre.length + word off, detail, w.acc, false, 0⟩) ∧
        (s.place w.pa = .host → (∀ l, w.what ≠ .fetchLine l) → traps ⟨5, w.va + word w.pre.length, 6, w.acc, false, 0⟩) ∧
        (∀ l, s.place w.pa ≠ .host → w.what = .fetchLine l → s2.joined (coreOf c / 256) l = [c] →
          traps ⟨code, w.va, detail, w.acc, false, 0⟩))) ∧
    (∀ pre e post, (s.core n).path = pre ++ e :: post → (∀ f ∈ pre, f.pa / 64 ≠ e.pa / 64) →
      let dropped := s.setCore n { s.core n with path := pre ++ post }
      (s.perform n e = (s1, true) → exec (.storePathPerform n pre.length) s = .next (s1.setCore n { s1.core n with path := pre ++ post })) ∧
      (s.perform n e = (s1, false) → exec (.storePathPerform n pre.length) s = .next s1) ∧
      ((∀ q, e.op ≠ .token q) →
        (∀ dev r, s.place e.pa = .remote dev → exec (.postedWriteAck (.core n) pre.length r) s = .next dropped) ∧
        (∀ r, s.place e.pa = .host → exec (.postedWriteAck (.core n) pre.length r) s = .next (
          if Reply.refuses r = true then dropped.logFabric 4 7 0 e.pa
          else { dropped with io := { dropped.io with hostCache := dropped.io.hostCache.erase (localOf e.pa / 64) } })))) ∧
    (∀ pre (q : Posted) post, (s.engine n).posted = pre ++ q :: post → (∀ f ∈ pre, f.pa / 64 ≠ q.pa / 64) →
      let dropped := s.setEngine n { s.engine n with posted := pre ++ post }
      (∀ dev r, s.place q.pa = .remote dev → exec (.postedWriteAck (.engine n) pre.length r) s = .next (dropped.endCopies n)) ∧
      (∀ r, s.place q.pa = .host → exec (.postedWriteAck (.engine n) pre.length r) s = .next (State.endCopies (
        if Reply.refuses r = true then dropped.logFabric 4 7 0 q.pa
        else { dropped with io := { dropped.io with hostCache := dropped.io.hostCache.erase (localOf q.pa / 64) } }) n))) ∧
    (∀ i q r, s.io.rings[i]? = some q → q.answer = none →
      ∃ t : State, exec (.postedWriteAck .ring i r) s = .next t ∧ t.io.rings = setAt s.io.rings i { q with answer := some r } ∧
        t.mem = s.mem ∧ t.ctxs = s.ctxs ∧ t.io.fabric = s.io.fabric) ∧
    (∀ w h size e pre q post code detail off, s.io.rings.filter (fun r => r.who == s.asker w.waiter) = pre ++ q :: post →
      (∀ p ∈ pre, ∀ a b d, p.answer ≠ some (.fault a b d)) → q.answer = some (.fault code detail off) →
        s.enq w h size e = (s.ringsDone (s.asker w.waiter), .fault (
          if s.place q.pa = .host then ⟨5, q.va, 6, 3, false, 0⟩ else ⟨code, replyAddr code q.va off, detail, 3, false, 0⟩))) ∧
    (∀ e : PathEntry, s.place e.pa = .hbm → s.heldAt (some (.path n)) (localOf e.pa / 64) = false → localOf e.pa / 64 ∉ s.io.hostHolds →
      let s2 := { s with waits := s.waits.filter (fun w => w != (Waiter.path n, localOf e.pa / 64)) }
      (e.op.spoilt s (localOf e.pa) = false → s.perform n e = (s2.applyOp (localOf e.pa) e.op, true) ∧
        (s2.applyOp (localOf e.pa) e.op).mem = memWrite s.mem (localOf e.pa) (e.op.apply (memRead s.mem (localOf e.pa) e.op.len))) ∧
      (e.op.spoilt s (localOf e.pa) = true → s.perform n e = (s2.logFabric 4 2 0 e.pa, true))) ∧
    (∀ till, s.ctx? c = some x → x.st = .yielding till →
      exec (.yieldEnd c) s = .next (if till ≤ s.now then s.setCtx c { x with st := .idle } else s)) ∧
    (s.nextReady n = some c → s.ctx? c = some x → s.fetch c x = (s1, .fill line) → s1.fillHeld c line = false →
      ∃ (t : State) (v : BitVec 512), exec (.fetchFill n line) s = .next t ∧ (t.core n).icache.find? line = some v ∧ t.mem = s1.mem ∧
        v = ((s1.lineBuffer (n / 256)).find? line).getD (s1.lineAt (line % (Config.localEnd / 64)))) ∧
    (exec (.descriptorRefetch n) s = .next { s with spilled := s.spilled.filter (· != n) }) ∧
    (line ∈ s.io.snoops → exec (.backInvalidateAnswer line) s = .next (State.flushWrites
      { s with io := { s.io with snoops := s.io.snoops.filter (· != line), hostHolds := s.io.hostHolds.filter (· != line) } })) ∧
    (exec (.cxlCacheSnoop line) s = .next { s with io := { s.io with hostCache := s.io.hostCache.erase line } })

/-- 13 R315, 14 R332 to R337, R342: requests of other devices are taken in order and performed at this device; a lost device is remembered, each
access that waits for it takes PEERGONE at its issuer, a copy stops with it, naming the side and the first byte of the part it waited for (a part of
the source before one of the destination), and the posted writes of a core to it count as acknowledged and are logged as lost; RDMA writes, sends,
completions and reads of 1 byte to 2 GiB act in their region's space, and a live workspace refuses them with CAUSE 4; CXL.mem and BAR 2 read and write
the bytes they name, and BAR 2 refuses a live workspace anywhere in its range; posted writes of one port keep their order (14 R336). That a device
which tests a part of another's write and agrees to it remembers it, and makes the write with no further test but that of errors, until it is made or
given up, is the model's choice (entry 63), and so is the queue of a port's posted writes (entry 80). The rows of requests and packets, and their
answers, are entries 9 and 57; the level, the limits and the failed reads of RDMA are entry 35. -/
def Obligations.OutsideAccesses : Prop :=
  ∀ (s s1 s2 : State) (p : Port) (qp region va dev : Nat) (bs : List Byte) (ps : List (Nat × Nat)),
    let line := va / 64
    let w := rdmaWho s region
    let lines := (ps.map (fun p => s1.hbmLines p.1 p.2)).flatten
    (∀ q, s.dxlOn = true → exec (.dxlFlitReceive q) s = .next { s with io := { s.io with dxlIn := s.io.dxlIn ++ [q] } }) ∧
    (∀ q l r, s.dxlOn = true → s.io.dxlIn = q :: l → ({ s with row := some (remotePlace q, false) } : State).performRemote q = (s1, some r) →
      let t := State.dropPlaces { s1 with row := s.row } (some (remotePlace q))
      exec .remoteAccess s = .next (State.settleRemote { t with io := { t.io with dxlIn := t.io.dxlIn.erase q } } q r)) ∧
    (∀ (q : DxlRequest), s.outsideFree (q.kind == .write bs) q.addr bs.length = (s1, true) →
      let who : Who := ⟨none, none, none, q.region, 0, !q.supervisor, none, none, none, none⟩
      (q.kind = .read bs.length → s.targetFault who Need.load q.addr bs.length = none →
        s.performRemote q = (s1, some (.data (memRead s1.mem q.addr bs.length)))) ∧
      (q.kind = .write bs → s.agreed q bs.length = false → s.targetFault who Need.store q.addr bs.length = none →
        s.performRemote q = (s1.poke q.addr bs, some .done))) ∧
    (∀ (q : DxlRequest),
      let who : Who := ⟨none, none, none, q.region, 0, !q.supervisor, none, none, none, none⟩
      let kept := { s with io := { s.io with promises := s.io.promises.erase ⟨q.dev, q.addr, bs.length⟩ } }
      (q.kind = .check bs.length →
        (∀ e, s.targetFault who Need.store q.addr bs.length = some e → s.performRemote q = (s, some (.fault e.1 e.2.1 e.2.2))) ∧
        (∀ k off, s.targetFault who Need.store q.addr bs.length = none → placeLocal q.addr = .pad k off →
          s.performRemote q = ({ s with io := { s.io with promises := s.io.promises ++ [⟨q.dev, q.addr, bs.length⟩] } }, some .done))) ∧
      (q.kind = .forgo bs.length → s.performRemote q = (kept, some .done)) ∧
      (q.kind = .write bs → ⟨q.dev, q.addr, bs.length⟩ ∈ s.io.promises →
        s.performRemote q = (if eccBad s who Need.store (s.phys q.addr) bs.length = none then kept.poke q.addr bs
          else kept.logFabric 2 2 q.dev (s.phys q.addr), some .done))) ∧
    (dev = s.ctl.devid → exec (.deviceLost dev) s = .next s) ∧
    (dev ≠ s.ctl.devid →
      let written := (s.cores.map (·.1)).foldl (lostWrites dev) s
      let copied := (written.engines.map (·.1)).foldl (fun t e => lostCopy dev (lostPosts dev t e) e) written
      let answered := lostRings dev ((copied.ctxs.map (·.1)).foldl (lostContext dev) copied)
      ∃ t : State, exec (.deviceLost dev) s = .next t ∧ dev ∈ t.io.lostDevs ∧ t.ctxs = answered.ctxs ∧ t.mem = answered.mem ∧
        t.cores = answered.cores ∧ t.engines = answered.engines ∧ t.io.fabric = answered.io.fabric ∧
        t.io.promises = answered.io.promises.filter (fun p => p.dev != dev) ∧
        t.gldms = answered.gldms.map (fun q => { q with got := q.got ++ lostReads dev q.members q.got })) ∧
    (∀ c x (r : RemoteWait), s.ctx? c = some x → x.st = .remote r → r.pa / Config.localEnd = dev → s.place r.pa ≠ .host →
      (∀ l, r.what ≠ .fetchLine l) →
      ((∀ l, r.what ≠ .written l) → lostContext dev s c =
        takeTrap ((s.dropToken (coreOf c) c).dropWaits c) c x ⟨6, r.va + word r.pre.length, 0, r.acc, false, 0⟩ x.iw) ∧
      (∀ l, r.what = .written l → (∀ pa ∈ l, pa / Config.localEnd = dev) → lostContext dev s c = (s.dropToken (coreOf c) c).wake c)) ∧
    (∀ n,
      let gone := (s.core n).path.filter (fun e => s.place e.pa == .remote dev && !e.op.isToken)
      let t := lostWrites dev s n
      (t.core n).path = (s.core n).path.filter (fun e => !(s.place e.pa == .remote dev && !e.op.isToken)) ∧
      (gone = [] → t.io = s.io) ∧
      ∀ e l, gone = e :: l → t.io.fabric.valid = true ∧ t.io.fabric.count = Nat.min (s.io.fabric.count + gone.length) 0xFFFF ∧
        (s.io.fabric.valid = false → t.io.fabric.source = 4 ∧ t.io.fabric.cause = 5 ∧ t.io.fabric.addr = e.pa)) ∧
    (∀ n i cmd pa, (s.engine n).queue[i]? = some cmd → cmd.asked = some pa → s.place pa = .remote dev →
      let stops := fun (dst : Bool) (va : Word) => lostCopyAt dev s n i =
        (s.count (.die (n / 32) cmd.region) 8 1).endCopy n i { cmd with asked := none, got := [] }
          (some (word (6 + (if dst then 256 else 0) + 512 * n), va, word cmd.next, cmd.addr))
      let owed := fun (p : Nat × Nat) => s.away p.1 = true ∧ s.hostCached p.1 = false ∧ ∀ g ∈ cmd.got, ¬ (g.1 = p.1 ∧ g.2.length = p.2)
      let untested := fun (q : Nat × Nat) => s.elsewhere q.1 = true ∧ q ∉ cmd.granted
      (∃ (dst : Bool) (va : Word), stops dst va) ∧
      ∀ ps qs, (s.checkAccess (cmd.who s n) Need.load anyPlace (cmd.src cmd.next) cmd.esz).2 = .ok ps →
        (s.checkAccess (cmd.who s n) Need.element anyPlace (cmd.dst cmd.next) cmd.esz).2 = .ok qs →
          (∀ pre p post, ps = pre ++ p :: post → owed p → (∀ q ∈ pre, ¬ owed q ∧ q.1 ≠ p.1) →
            stops false (cmd.src cmd.next + word (pre.map (·.2)).sum)) ∧
          ((∀ p ∈ ps, ¬ owed p) → ∀ pre q post, qs = pre ++ q :: post → untested q → (∀ r ∈ pre, ¬ untested r ∧ r.1 ≠ q.1) →
            stops true (cmd.dst cmd.next + word (pre.map (·.2)).sum))) ∧
    (∀ st v, (∃ e ∈ s.io.posts, e.1 = st) → exec (.workRequestPost st qp v) s =
      .next { s with io := { s.io with posts := s.io.posts ++ [(st, .work qp v)] } }) ∧
    ((∃ e ∈ s.io.posts, e.1 = .port p) → exec (.bar2Write p va bs) s =
      .next { s with io := { s.io with posts := s.io.posts ++ [(.port p, .bar2 va bs)] } }) ∧
    (∀ st v, s.posting st = false → s.ctl.stage = 3 → qp < 16384 → s.service 35 = true →
      exec (.workRequestPost st qp v) s = .next { s with io := { s.io with works := s.io.works ++ [(qp, v)] } }) ∧
    (s.ethOn = true → qp ∉ s.io.qpError →
      (qp < 16384 → 0 < bs.length → bs.length ≤ 2 ^ 31 →
        (∀ f, s.rdmaParts w Need.put (word va) bs.length = (s1, .fault f) → f.code = 16 →
          exec (.rdmaWrite qp region va bs) s =
            .next ((s1.logFabric 3 4 0 (s1.liveByte w (word va) f.addr (bs.length / 64 + 2))).qpFail qp)) ∧
        (s.rdmaParts w Need.put (word va) bs.length = (s1, .ok ps) → s1.ownLines none lines = (s2, true) →
          let t := s2.pokeParts ps bs
          exec (.rdmaWrite qp region va bs) s = .next (t.tell .done) ∧ exec (.completionEntry qp region va bs) s = .next (t.tell .done) ∧
          exec (.send qp region va bs) s = .next ((t.received qp bs).tell .done) ∧
          (∀ imm, exec (.rdmaWriteWithImmediate qp region va bs imm) s = .next ((t.received qp (leBytes 4 imm.toNat)).tell .done)))) ∧
      (∀ len, qp < 16384 → 0 < len → len ≤ 2 ^ 31 → s.rdmaParts w Need.load (word va) len = (s1, .ok ps) → s1.readLines none lines = (s2, true) →
        exec (.rdmaRead qp region va len) s = .next (s2.tell (.data (s2.peekParts [] ps))))) ∧
    (s.cxlMemOn va = true → s.heldAt none line = false →
      (badIn s.bad (64 * line) 64 = false → ∃ t : State, exec (.cxlMemRead p va) s = .next t ∧
        t.hostOut = .data (memRead s.mem (64 * line) 64) ∧ line ∈ t.io.hostHolds ∧ t.mem = s.mem) ∧
      (∀ data mask, maskedBad s.bad line mask = false → memWf s.mem = true →
        ∃ t : State, exec (.cxlMemWrite p va data mask) s = .next t ∧ t.hostOut = .done ∧
          (∀ i, i < 64 → memByte t.mem (64 * line + i) =
            if mask.getLsbD i then data.extractLsb' (8 * i) 8 else memByte s.mem (64 * line + i)) ∧
          ∀ a, (a < 64 * line ∨ 64 * line + 64 ≤ a) → memByte t.mem a = memByte s.mem a)) ∧
    (s.ctl.stage = 3 →
      (∀ len, bar2Range va len = true →
        ((∃ c y, s.ctx? c = some y ∧ y.wp.toNat < va + len ∧ va < y.wp.toNat + 256) →
          exec (.bar2Read p va len) s = .next ((s.logFabric (portNum p) 4 0 (s.phys va)).tell .unsupported)) ∧
        (s.liveWs va len = false → badIn s.bad va len = false → exec (.bar2Read p va len) s = .next (s.tell (.data (memRead s.mem va len))))) ∧
      (bar2Range va bs.length = true → s.posting (.port p) = false →
        (bar2Causes s (bs.length / 64 + 2) va bs.length = none → exec (.bar2Write p va bs) s = .next (s.poke va bs)) ∧
        (∀ cause, bar2Causes s (bs.length / 64 + 2) va bs.length = some cause →
          exec (.bar2Write p va bs) s = .next (s.logFabric (portNum p) cause 0 (s.phys va)))))

/-- 01 R17, R21, R25 to R28, R30; 03 R77, R78; 12 R281 to R286, R291; 13 R311 to R313: seal timers and pending seals are served; the binder binds or
refuses the entry its lanes allow, once in an s-cycle; a bind writes the workspace and sets PC, FCSR, EVENTS and the binding words; a handler is bound
at supervisor level with the trap registers of its fault; a full fault queue is tried again; a crew with nothing left retires, which drops its guards,
shelves, timers and queue and leaves its cluster draining, and its cluster is free once its tags have drained; a launch that passes its checks is
placed, with a serial, its clusters by rank, their task queues seeded and their units started. The first values of a bind that the spec leaves open
are entries 5 and 48, the link array of a queue entry 19, the template of a handler entry 46, what holds a crew back entry 31, the spaces read entry
56, and that a seal and the end of a drain wait for the write that another device has tested entry 63. -/
def Obligations.CrewsBindRetireAndLaunch : Prop :=
  ∀ (s s1 s2 s3 : State) (k : Nat) (u : MxUnit),
    (∀ tm, (s.cluster k).timers.find? (fun t => t.hdr == tm.hdr) = some tm → expired (s.cycleOf (dieOfCluster k)) tm = true →
      (s.mx k tm.unit).queue.any (fun q => q.hdr == tm.hdr && q.who == .timer tm.opener) = false →
        exec (.timerExpiry k tm.hdr) s = .next (
          if (s.mx k tm.unit).accepts = false then s.setCluster k ((s.cluster k).disarm tm.hdr)
          else (s.requestSeal k tm.unit tm.hdr (.timer tm.opener)).1)) ∧
    (∀ hdr who, (32 ≤ (s.mx k u).shelf.length ∨ (s.mx k u).queue ≠ [] ∨ s.sealPromised k hdr = true) →
      s.requestSeal k u hdr who = (s.setMx k u { s.mx k u with queue := joinQueue ⟨hdr, who, s.now⟩ (s.mx k u).queue }, false)) ∧
    (∀ q l, (s.mx k u).queue = q :: l → (s.mx k u).shelf.length < 32 → q.since < s.now → s.storing k q.hdr = false →
      s.sealPromised k q.hdr = false →
      exec (.servePendingRequest k u) s = .next ((s.setMx k u { s.mx k u with queue := l }).serve k u q)) ∧
    ((s.crew? k).isSome = true → (s.cluster k).frozen = false → s.quiescing k = false → (s.cluster k).bindAt ≤ s.now →
      s.handlerReady k = false → s.mayTake k = true →
      let used := s.setCluster k { s.cluster k with bindAt := s.now + 1 }
      (∀ lane i l, [7, 6, 5, 4, 3, 2, 1, 0].filterMap (s.laneAct k) = .bind lane i :: l → exec (.bind k) s = .next (used.bindTask k lane i)) ∧
      (∀ lane f l, [7, 6, 5, 4, 3, 2, 1, 0].filterMap (s.laneAct k) = .refuse lane f :: l →
        exec (.bind k) s = .next (used.refuseEntry k lane f) ∧
        exec (.faultQueueRetry (.binder k)) s = .next (used.refuseEntry k lane f))) ∧
    (∀ lane i slot, s.idleSlot (4 * k + i) = some slot →
      let q := contOf (s.tqHead k lane)
      let region := (s.crewRegion? k).getD q.region
      let c := 64 * (4 * k + i) + slot
      let dw0 := leBytes 8 (q.d7 &&& ~~~8).toNat
      let popped := (s.tqPop k lane).mem
      let bound := fun (wp : Nat) (bs : List Byte) => ∃ (t : State) (x : Ctx), s.bindTask k lane i = t.seat c x ∧ t.mem = memWrite popped wp bs ∧
        x.pc = q.pc &&& ~~~3 ∧ x.wp = word wp ∧ x.bind2 = q.d2 ∧ x.bind3 = q.d3 ∧ x.arg0 = q.arg0 ∧ x.arg1 = q.arg1 ∧ x.arg2 = q.arg2 ∧
        x.level = .user ∧ x.fcsr = word (field q.d2 8 4 + field q.d2 10 9 * 32) ∧ x.events = 0 ∧ x.st = .idle ∧ x.region = region ∧
        x.asid = s.effOf region 5 (·.asid) 0 ∧ x.dtb = s.effOf region 9 (·.dtb) 0 ∧ x.gtb = s.effOf region 8 (·.gtb) 0 ∧
        (t.seat c x).ctx? c = some x
      (∀ j, q.wp = 0 → s.freePool (4 * k + i) = some j → bound (wsAddr (4 * k + i) (256 * j))
        (dw0 ++ (([q.arg0, q.arg1, q.arg2] ++ List.replicate 28 0).map (fun (v : Word) => leBytes 8 v.toNat)).flatten)) ∧
      (q.wp ≠ 0 → bound q.wp.toNat dw0)) ∧
    (∀ h rest o o' bs c j, (s.cluster k).handlers = h :: rest → s.handlerReady k = true → (s.cluster k).bindAt ≤ s.now →
      let w := s.mxWho k
      let hn := s.effOf w.region 7 (·.hndl) 0
      hn ≠ 0 → hn.toNat % 64 = 0 → (s.setCluster k { s.cluster k with handlers := rest }).readAs w hn 64 o = (s1, .ok (bs, o')) →
      s1.handlerSlot k h = some c → s1.freePool (coreOf c) = some j →
        let q := contOf bs
        let wp := wsAddr (coreOf c) (256 * j)
        ∃ (t : State) (x : Ctx), exec (.handlerBind k o) s = .next ((t.seat c x).binderUsed k) ∧ x.level = .supervisor ∧ x.trappc = h.pc ∧
          x.trapinfo = h.info ∧ x.trapaddr = h.addr ∧ x.pc = q.pc &&& ~~~3 ∧ x.tvbase = x.pc ∧ x.region = w.region ∧ x.st = .idle ∧
          x.wp = word wp ∧ t.mem = memWrite s1.mem wp (leBytes 8 (setField (q.d7 &&& ~~~8) 7 4 2).toNat ++
            (([q.arg0, q.arg1, q.arg2, h.pos] ++ List.replicate 27 0).map (fun (v : Word) => leBytes 8 v.toNat)).flatten)) ∧
    (∀ c x f w next, s.ctx? c = some x → x.st = .waiting (.dispatch f w next true) → next ≤ s.now → x.held = false →
      s.regionActive x.region = true → s.quiescing (clusterOf c) = false →
        let t := s.dispatch c x f w (x.level == .supervisor)
        ((∀ y, t.ctx? c = some y → ∀ f w n, y.st ≠ .waiting (.dispatch f w n false)) →
          exec (.faultQueueRetry (.context c)) s = .next (t.dropWaits c)) ∧
        (∀ y f w n, t.ctx? c = some y → y.st = .waiting (.dispatch f w n false) → exec (.faultQueueRetry (.context c)) s = .next t)) ∧
    (∀ q rest r, (s.cluster k).notices = q :: rest → q.next ≤ s.now → s.quiescing k = false → s.crewRegion? k = some r → s.regionActive r = true →
      exec (.faultQueueRetry (.notice k)) s =
        .next ((s.setCluster k { s.cluster k with notices := rest }).postRecord k q.rcd q.unit)) ∧
    (∀ r f next e o o', s.region? r.id = some r → s.co.launchRetry.find? r.id = some (f, next, e) → next ≤ s.now → r.state = .active →
      s.launchHead r o = (s1, .ok (some e, o')) → exec (.faultQueueRetry (.launch r.id o)) s = .next (s1.rejectLaunch r e f)) ∧
    (s.retrySpans = s1 → (s1.crew? k).isSome = true → s1.crewIdle k = true → exec (.crewRetirement k) s = .next (s1.retireCrew k)) ∧
    (∀ n r, (s.cluster k).owner = .crew n r →
      let cl := (s.retireCrew k).cluster k
      cl.owner = .draining n r ∧ cl.guards = [] ∧ cl.timers = [] ∧ cl.tq = TaskQueue.none ∧ cl.mx0.shelf = [] ∧ cl.mx1.shelf = [] ∧
        cl.mx0.queue = [] ∧ cl.mx1.queue = [] ∧ ∀ q ∈ (s.retireCrew k).parked, q.core / 4 ≠ k) ∧
    (∀ n r, (s.cluster k).owner = .draining n r → s.tagsClear k = true → s.promised k 0 Config.padSize = false →
      ∃ t : State, exec (.clusterDrainEnd k) s = .next t ∧ (t.cluster k).owner = .free ∧ t.co.retest = s.co.reserving.map (·.1) ∧
        ∀ n, n / 4 = k → (t.core n).tags = []) ∧
    (∀ r e o o1 o2 l, s.co.handling = none → s.selected s.candidates = some r →
      let v := { s with co := { s.co with chosen := s.co.chosen.insert (s.effPrio r) r.id, handling := some r.id,
                                          retest := s.co.retest.filter (· != r.id) } }
      let q := contOf e
      v.launchable r = true → v.launchHead r o = (s1, .ok (some e, o1)) → q.region = r.id → q.kind = 1 → q.pc = 0 → q.wp = 0 →
      s1.checkLaunch r q o1 = (s2, .ok (l, o2)) →
        let t := s2.unreserve r.id
        ∀ s4 : State, (∀ p ∈ t.path r, p.usecl + l.ncrew ≤ t.maxClusters p) → l.ncrew ≤ (t.freeEligible l.featmask).length →
        State.imagesFree r.id l (chooseClusters (t.freeEligible l.featmask) l.ncrew) t = (s4, true) → s4.removeLaunch r none = (s3, true) →
          ∃ z : State, z = s3.placeSpan r q l (chooseClusters (t.freeEligible l.featmask) l.ncrew) ∧
            exec (.launchSelection o) s = .next { z with co := { z.co with handling := none } }) ∧
    (∀ r q l ks, ∃ t : State, t.co.nextSerial = s.co.nextSerial + 1 ∧ t.clusters = s.clusters ∧
      (∃ p ∈ t.co.spans, p.serial = s.co.nextSerial ∧ p.region = r.id ∧ p.crews.map (·.cluster) = ks ∧ p.done = l.done ∧ p.records = 0) ∧
      s.placeSpan r q l ks = ((List.range ks.length).zip ks).foldl
        (fun t e => t.placeCrew r.id s.co.nextSerial e.1 e.2 l (seedOf l.seed q)) t) ∧
    (∀ region serial rank l seed, seed.length = 64 → 0 < l.qcap → l.qcap ≤ 32768 → k < 256 → memWf s.mem = true →
      let t := s.placeCrew region serial rank k l seed
      let cl := t.cluster k
      cl.owner = .crew serial rank ∧ cl.frozen = false ∧ cl.guards = queueGuards l.qcap ∧ cl.timers = [] ∧ cl.ctxlim = l.ctxlim ∧
        cl.tq.qcap = l.qcap ∧ (cl.tq.lane (field (recWord seed 7) 2 0)).count = 1 ∧ memRead t.mem (tqSlot k l.qcap 0) 64 = seed ∧
        (l.images.1 = none → cl.mx0 = Mx.fresh) ∧ (l.images.2 = none → cl.mx1 = Mx.fresh) ∧
        (∀ i, l.images.1 = some i → cl.mx0.st = .run ∧ cl.mx0.line = l.entries.1 ∧ cl.mx0.store.length = i.2.length) ∧
        (∀ i, l.images.2 = some i → cl.mx1.st = .run ∧ cl.mx1.line = l.entries.2 ∧ cl.mx1.store.length = i.2.length))

/-- 07 R173, R174, R179; 08 R200, R201; 11 R276; 12 R292 to R296; 13 R318 to R321; 15 R351: a query is granted its grid's next point; a copy runs a
quantum, and when it ends its tag is counted down, and when it stops its report (COPY_STOP: code, side and engine, address, element, record) lands
with the tag's fault bit, both once its writes are acknowledged; a report waits while the fault bit is set, and is dropped while the cluster drains; a
GLDM's result lands; the region command at the head of the queue completes; a pre-emption starts, saves its subtree when every cluster is quiet, and a
resume brings it back. When PREEMPT and RESUME complete, and an ID kept aside, are entry 52; a copy that overlaps itself is entry 22, its registration
entry 14, that tag and report wait for the acknowledgements of posted writes entry 41, the queries on their way and the grants of an s-cycle entry 69,
and the layout of an image entry 25. That a GLDM's result which its destination does not take is dropped, with its tag counted down, is the model's
choice of entry 23; that a quantum ends with its element while its region quiesces, and that a copy which ends gives up what another device keeps for
it, are entry 63. -/
def Obligations.EnginesAndRegionCommands : Prop :=
  ∀ (s s1 : State),
    (∀ q p, s.grantsNow < 4 → s.nextQuery = some q → s.span? q.span = some p →
      exec .wdqGrant s = .next (((State.setSpan { s with co := { s.co with queries := s.co.queries.erase q, grants := (s.now, s.grantsNow + 1) } }
        { p with grant := p.grant + 1 }).storeAnswer q (gridWord p.grid p.grant)).tagDown (coreOf q.ctx) q.tag)) ∧
    (4 ≤ s.grantsNow → exec .wdqGrant s = .next s) ∧
    (∀ e o r en i cmd cmd', s.chooseRegion e = some (r, en) → pickCommand en.queue r (fun c => c.begun || s.parkedOf e < 4) = some i →
      en.queue[i]? = some cmd →
      let cmd0 := if cmd.begun then cmd else { cmd with begun := true, fresh := s.freeUse, overlaps := cmd.mayOverlap s e }
      let s0 := { s.setEngine e en with freeUse := if cmd.begun then s.freeUse else s.freeUse + 1 }
      let most := if s.quiesces cmd.region then 1 else 1024
      let t := s1.count (.die (e / 32) cmd.region) 7 1
      (runElems e most s0 cmd0 o = (s1, cmd', .finished) →
        exec (.copyQuantum e o) s = .next (t.endCopy e i cmd' none).flushWrites) ∧
      (∀ dst f, runElems e most s0 cmd0 o = (s1, cmd', .stopped dst f) →
        exec (.copyQuantum e o) s = .next ((t.count (.die (e / 32) cmd.region) 8 1).endCopy e i cmd'
          (some (word (f.code + (if dst then 256 else 0) + 512 * e), f.addr, word cmd'.next, cmd'.addr))).flushWrites) ∧
      (runElems e most s0 cmd0 o = (s1, cmd', .more) →
        exec (.copyQuantum e o) s = .next (t.setEngine e { t.engine e with queue := setAt (t.engine e).queue i cmd' }).flushWrites)) ∧
    (∀ e i cmd, (s.engine e).ending = [] →
      let left := (s.forgoCopy cmd []).setEngine e { s.engine e with queue := dropAt (s.engine e).queue i }
      ((∀ p ∈ (s.engine e).posted, p.copy ≠ cmd.fresh) →
        s.endCopy e i cmd none = left.tagDown cmd.core cmd.tag ∧
        ∀ a b c d, s.endCopy e i cmd (some (a, b, c, d)) = left.tagReport ⟨some e, cmd.core, cmd.tag, a, b, c, d⟩) ∧
      (∀ report, (∃ p ∈ (s.engine e).posted, p.copy = cmd.fresh) →
        s.endCopy e i cmd report = left.setEngine e { left.engine e with ending := [⟨cmd.fresh, cmd.core, cmd.tag, report⟩] })) ∧
    (∀ p : Parked, p.core < 1024 →
      let g := s.tag p.core p.tag
      (s.drains p.core = true → s.tagReport p = s.tagDown p.core p.tag) ∧
      (s.drains p.core = false → g.fault = true → s.tagReport p = { s with parked := s.parked ++ [p] }) ∧
      (s.drains p.core = false → g.fault = false →
        s.tagReport p = (s.setTag p.core p.tag ⟨g.count - 1, true, p.fr0, p.fr1, p.fr2, p.fr3⟩).wakeTags p.core)) ∧
    (∀ n q o rk, s.gldms[n]? = some q → s.unreadAway q.members q.got = [] → s.unreadHere q.members q.got = [] → (∀ g ∈ q.got, g.failed = none) →
      let t := { s with gldms := dropAt s.gldms n }
      (s.crew? q.cluster = some (q.span, rk) → (s.cluster q.cluster).takes q.sup q.dest 64 = true →
        exec (.gldmResult n o) s = .next ((t.poke (padAddr q.cluster q.dest)
          (((List.range 8).map (fun i => leBytes 8 (gleanValue q.op q.members q.got i).toNat)).flatten)).tagDown (coreOf q.ctx) q.tag)) ∧
      ((s.cluster q.cluster).takes q.sup q.dest 64 = false → exec (.gldmResult n o) s = .next (t.tagDown (coreOf q.ctx) q.tag))) ∧
    (∀ q, s.headCmd = some q → q.isBad = false → s.rcbOk q.rcb = true → s.readLines none (rcbLines (localOf q.rcb)) = (s1, true) →
      (q.cmd = 1 → s1.regionAt (localOf q.rcb) = none → s1.peek (localOf q.rcb + 5) 1 = 0 →
        let r := s1.readRcb (localOf q.rcb)
        r.id ≠ 0 → s1.parentActive r = true →
          (∀ t, s1.claimId r.id = some t → t.depthBelow r.parent ≤ 8 →
            exec .activate s = .next (((t.setRegion r).setRegionState r.id .active).endCmd 0)) ∧
          (s1.region? r.id = none → s1.claimId r.id = some s1) ∧
          (∀ g, s1.region? r.id = some g → g.state = .active → exec .activate s = .next (s1.endCmd 2))) ∧
      (q.cmd = 5 → s1.regionAt q.rcb = none → 3 ≤ s1.peek (localOf q.rcb + 5) 1 →
        exec .deactivate s = .next ((s1.coWrite (localOf q.rcb + 5) [0]).endCmd 0)) ∧
      (∀ r, s1.regionAt q.rcb = some r →
        (q.cmd = 4 → (r.state = .active ∨ r.state = .preempted) → exec .haltCommand s = .next ((s1.haltRegions r.id none).endCmd 0)) ∧
        (q.cmd = 5 → r.state = .halted → r.usecl = 0 →
          let t := s1.setRegionState r.id .inactive
          exec .deactivate s = .next (State.endCmd { t with co := { t.co with regions := t.co.regions.erase r.id } } 0)) ∧
        (q.cmd = 2 → r.state = .active → s1.areaOk q.image (s1.subtreeClusters r.id).length = true →
          let t := s1.popCmd
          exec .preempt s = .next { t with co := { t.co with preempts := t.co.preempts ++ [⟨r.id, localOf q.image, false⟩] } }) ∧
        (∀ im s2 s3, q.cmd = 3 → r.state = .preempted → s1.parentActive r = true → (s1.co.resumes.any (fun p => p.1 == r.id)) = false →
          s1.co.images.find? (fun im => im.region == r.id && im.image == localOf q.image && s1.place q.image == .hbm) = some im →
          let rcbs := im.regions.filterMap (fun id => (s1.region? id).map (·.rcb))
          s1.readLines none (im.clusters.map (fun (sc : SavedCluster) => (sc.base + Machine.controlAt) / 64) ++ (rcbs.map rcbLines).flatten) = (s2, true) →
          im.clusters.all s2.headerOk = true → idsOk (rcbs.map s2.rcbId) = true → s2.reclaimIds rcbs = some s3 →
            ∃ t : State, exec .resume s = .next (t.endCmd 0) ∧ (s2.rcbId r.rcb, im.image) ∈ t.co.resumes))) ∧
    (∀ j, s.co.preempts.any (·.started) = false → s.nextPreempt = some j → ((s.region? j.region).map (·.state)) = some .active →
      ∃ t : State, exec .preemptionEvent s = .next t ∧ t.co.preempts = startJob j s.co.preempts) ∧
    (∀ j, s.co.preempts.find? (·.started) = some j → ((s.region? j.region).map (·.state)) = some .active →
      let ks := s.subtreeClusters j.region
      ks.all s.quiet = true → (∀ l ∈ s.io.hostHolds, ¬ (j.image ≤ 64 * l ∧ 64 * l < j.image + ks.length * Config.imageStride)) →
        ∃ t : State, exec .copyOut s = .next (t.endPreempt j 0) ∧ (∀ im ∈ s.co.images, im ∈ t.co.images) ∧
          ∃ im ∈ t.co.images, im.region = j.region ∧ im.image = j.image ∧ im.clusters.map (·.index) = ks) ∧
    (∀ im, s.ctl.stage = 3 → s.readyImage = some im →
      ∃ t : State, exec .resumeCopyBack s = .next t ∧ t.co.images = s.co.images.filter (fun q => q.region != im.region))

/-- 13 R307, R314, R315; 14 R341, R342; 15 R344 to R348, R356 to R358: what a store to a control register does, as a command of its storer. MXRESUME
makes a FAULTED unit run; MXHALT stops a unit, which halts with its last M op; FREEZE holds the user contexts of a crew and stops its timers; THAW
ends that; RELEASE of a frozen crew unbinds its contexts, halts its units without landing, counts 1 in its span and retires it. A doorbell's step
takes what the slot held as the doorbell arrived, once the steps of that slot before it are over. A mailbox command waits to be performed, answers
BUSY where another waits, and replies as R356 to R358 say. The serial number of 8 bytes in IDENTITY's reply is entry 6; a mailbox command as a turn of
its own, and the semaphore before BUSY, are entry 54; what the keys and the signature decide is entries 21 and 27; the refusal of a device context's
mask is entry 44. These are the model's choices too: that a store waits behind the storer's stores that wait, entry 80, and for whom a doorbell's ENQ
is made and which of its faults gives CODE 11, entry 78. -/
def Obligations.ControlRegisterCommands : Prop :=
  ∀ (s s1 s2 : State) (st : Storer) (k : Nat) (u : MxUnit) (p : Port) (ml : BitVec 16) (v : Word),
    let r : State := { s with row := some (.storer st, false) }
    let ends := fun (t : State) => State.dropPlaces { t with row := s.row } (some (.storer st))
    (∀ addr, addr % 8 = 0 → placeLocal addr = .mmio → exec (.registerWrite st addr v) s = .next (s.storeCommand st addr v)) ∧
    (∀ addr, (addr % 8 ≠ 0 ∨ placeLocal addr ≠ .mmio) → exec (.registerWrite st addr v) s = .next s) ∧
    (∀ addr, s.posting st = true → s.storeCommand st addr v = { s with io := { s.io with posts := s.io.posts ++ [(st, .reg addr v)] } }) ∧
    (k < 256 →
      exec (.mxresume k u st) s = exec (.registerWrite st (clctlAddr k) (clctlWord 1 u)) s ∧
      exec (.mxhalt k u st) s = exec (.registerWrite st (clctlAddr k) (clctlWord 2 u)) s ∧
      exec (.freeze k st) s = exec (.registerWrite st (clctlAddr k) 3) s ∧ exec (.thaw k st) s = exec (.registerWrite st (clctlAddr k) 4) s ∧
      exec (.release k st) s = exec (.registerWrite st (clctlAddr k) 5) s) ∧
    (s.ctl.stage = 3 → k < 256 → s.clusterRight st k = true → s.posting st = false →
      let m := s.mx k u
      let cl := s.cluster k
      (exec (.mxresume k u st) s = .next (ends (if m.st = .faulted then r.setMx k u { m with st := .run } else r))) ∧
      ((m.st = .run ∨ m.st = .faulted) → m.flight ≠ [] → exec (.mxhalt k u st) s = .next (ends (r.setMx k u { m with stopping := true }))) ∧
      ((m.st = .run ∨ m.st = .faulted) → m.flight = [] → m.queue = [] →
        let l := (landOrder m.pend).foldl (fun x p => x.land p.reg) m
        exec (.mxhalt k u st) s = .next (ends (r.setMx k u { l with st := .halted, pend := [], queue := [], stopping := false }))) ∧
      (m.st ≠ .run → m.st ≠ .faulted → exec (.mxhalt k u st) s = .next (ends r)) ∧
      ((s.crew? k).isSome = true → ∃ t : State, exec (.freeze k st) s = .next (ends t) ∧ (t.cluster k).frozen = true ∧
        (t.cluster k).timers = stopTimers (s.cycleOf (dieOfCluster k)) cl.timers ∧ t.mem = s.mem ∧
        ∀ c x, s.ctx? c = some x → t.ctx? c = some (if clusterOf c = k ∧ x.level = .user then { x with held := true } else x)) ∧
      (cl.frozen = true → ∃ t : State, exec (.thaw k st) s = .next (ends (if t.quiescing k then t else t.startTimers k)) ∧
        t.cluster k = { cl with frozen := false } ∧
        ∀ c x, s.ctx? c = some x → t.ctx? c = some (if clusterOf c = k then { x with held := false } else x)) ∧
      (cl.frozen = false → exec (.thaw k st) s = .next (ends r) ∧ exec (.release k st) s = .next (ends r)) ∧
      (∀ n rank, cl.frozen = true → cl.owner = .crew n rank →
        let unbound := (s.boundIn k).foldl (fun t c => match t.ctx? c with
          | some x => (t.freeWs (coreOf c) x.home).unbind c
          | none => t) r
        let t := (unbound.haltMx k .mx0 false).haltMx k .mx1 false
        (t.mx k .mx0).st = .halted ∧ (t.mx k .mx1).st = .halted ∧ (t.mx k .mx0).v = (unbound.mx k .mx0).v ∧
          (∀ q, t.span? n = some q → exec (.release k st) s = .next (ends ((t.setSpan { q with records := q.records + 1 }).retireCrew k))))) ∧
    (∀ me kind asid vpg, s.invalidate me kind asid vpg = (s1, .ok ()) →
      (∀ n, ∀ e ∈ (s1.core n).tlb, keepTlb kind asid vpg e = true) ∧ (∀ n, ∀ e ∈ (s1.cluster n).tlb, keepTlb kind asid vpg e = true) ∧
        ∀ n, ∀ e ∈ (s1.engine n).tlb, keepTlb kind asid vpg e = true) ∧
    (s.ctl.stage = 3 → isContext st = false → s.posting st = false →
      (∀ asid vpg, r.invalidate none 0 asid vpg.toNat = (s1, .ok ()) → exec (.tlbinvPage st asid vpg) s = .next (ends s1)) ∧
      (∀ asid, r.invalidate none 1 asid 0 = (s1, .ok ()) → exec (.tlbinvAsid st asid) s = .next (ends s1)) ∧
      (r.invalidate none 2 0 0 = (s1, .ok ()) → exec (.tlbinvAll st) s = .next (ends s1)) ∧
      (r.invalidate none 2 0 0 = (s1, .held) →
        exec (.tlbinvAll st) s = .next (State.post { s1 with row := s.row } st (.reg (Config.mmioBase + 0x200) 0x200000000000000))) ∧
      (∀ slot (b : Bell) (t : State), slot < 4096 → r.bellOf st slot v = (t, b) →
        let a := Config.mmioBase + 0x20000000 + 256 * slot + 8
        let who := regionWho t b.region.toNat none
        let bytes := ((b.entry.map (fun d => leBytes 8 d.toNat)).flatten).take (8 * 2 ^ field b.v 1 0)
        let step := fun (e : State) => exec (.doorbell st slot v) s = .next (ends { e with io := { e.io with bells := e.io.bells.filter (·.who != st) } })
        (t.bellReady b = false → exec (.doorbell st slot v) s = .next (State.post { t with row := s.row } st (.reg a v))) ∧
        (b.who = st → t.bellReady b = true →
          (field b.v 63 2 ≠ 0 → step ((t.logDevice 2 (Storer.source st) (word (t.phys a)) 0).windowDone b.slot 11)) ∧
          (field b.v 63 2 = 0 → ((s.region? b.region.toNat).map (·.state)) ≠ some .active →
            step ((t.logFabric (Storer.dropSource st) 6 0 (t.phys a)).windowDone b.slot 11)) ∧
          (field b.v 63 2 = 0 → ((s.region? b.region.toNat).map (·.state)) = some .active →
            (∀ f, t.qFind who true b.qhandle = (s1, .fault f) →
              step ((s1.logFabric (Storer.dropSource st) 6 0 (s1.phys a)).windowDone b.slot 11)) ∧
            ∀ pa, t.qFind who true b.qhandle = (s1, .ok pa) →
              (∀ q, s1.enq (regionWho s1 b.region.toNat none) b.qhandle (8 * 2 ^ field b.v 1 0) bytes = (s2, .ok q) →
                step (s2.windowDone b.slot (q.value % 256))) ∧
              ∀ f, s1.enq (regionWho s1 b.region.toNat none) b.qhandle (8 * 2 ^ field b.v 1 0) bytes = (s2, .fault f) →
                step (if f.code = Code.bounds.num then s2.windowDone b.slot 11
                  else (s2.logFabric (Storer.dropSource st) 6 0 (s2.phys a)).windowDone b.slot 11))))) ∧
    (∀ slot, let w := s.io.windows.getD slot Window.zero
      let b : Bell := ⟨st, slot, v, w.qhandle, w.region, w.entry, s.unperformed st⟩
      (s.io.bells.find? (·.who == st) = none → s.bellOf st slot v = ({ s with io := { s.io with bells := s.io.bells ++ [b] } }, b)) ∧
      ∀ q, s.io.bells.find? (·.who == st) = some q → s.bellOf st slot v = (s, q)) ∧
    (∀ (b : Bell) a va pa f, isContext b.who = true → s.qFind (s.bellWho b) true b.qhandle = (s1, .ok pa) →
      s1.enq (s1.bellWho b) b.qhandle (8 * 2 ^ field b.v 1 0) (((b.entry.map (fun d => leBytes 8 d.toNat)).flatten).take (8 * 2 ^ field b.v 1 0)) =
        (s2, .fault f) → f.code ≠ Code.bounds.num → s.bellEnq b a va = (s2, .fault f)) ∧
    (s.ctl.stage = 3 → s.posting st = false → exec (.fabricLogClr st v) s = .next (ends (r.fabricClear v))) ∧
    (1 ≤ s.ctl.stage → isContext st = false → s.posting st = false →
      let stored := fun (n : Nat) => { s.ctl with owner := n, semStore := some (s.now, semPlace st) }
      (s.ctl.owner = 0 → ∃ n, n ≠ 0 ∧ exec (.acq st) s = .next (ends { r with ctl := stored n }) ∧ State.owns { s with ctl := stored n } st = true) ∧
      (s.ctl.owner ≠ 0 → exec (.acq st) s = .next (ends { r with ctl := stored s.ctl.owner })) ∧
      (s.owns st = true → exec (.rel st) s = .next (ends { r with ctl := stored 0 }))) ∧
    (s.ctl.stage = 2 → s.ctl.trained = true → s.owns st = true → v &&& 3 = 3 → s.posting st = false →
      exec (.stage st v) s = .next (ends { r with ctl := { s.ctl with stage := 3, featGrant := (s.ctl.featReq &&& s.ctl.featOffer) ||| 1 },
                                                  co := { s.co with chosen := [] } })) ∧
    (1 ≤ s.ctl.stage → isContext st = false →
      let box := s.ctl.box p
      let request := box.bytes 0 (Nat.min ml.toNat 3840)
      let gives := fun (stat : Nat) (reply : List Byte) (t : State) (i : Instr) => exec i s = .next (t.boxDone p stat reply)
      let refused := fun (t : State) => (t.boxDone p 4 []).logDevice 1 (Storer.source st) (word (s.phys (mailboxAddr p))) 0
      let taken := s.boxTaken p
      let commits := fun (t : State) (good : ImageCheck) => if good.signed = true ∧ t.ctl.rollback ≤ good.rollback
        then State.boxDone { t with ctl := { t.ctl with committed := some t.ctl.staging } } p 0 []
        else (State.boxDone { t with ctl := { t.ctl with staging := [] } } p 3 []).logDevice 4 (Storer.source st) (word (s.phys (mailboxAddr p))) 0
      (let cmd := field v 7 0
       s.posting st = false → exec (.registerWrite st (mailboxAddr p) v) s = .next (ends (
         if (cmd = 4 ∨ cmd = 5) ∧ s.owns st = false then refused r
         else if box.pending.isSome = true then r.boxDone p 1 []
         else if cmd = 0 ∨ 5 < cmd then r.boxDone p 2 []
         else { r with ctl := s.ctl.setBox p { box with pending := some (cmd, field v 31 16, st) } }))) ∧
      (∀ who, box.pending = some (1, ml.toNat, who) → exec (.identity p ml) s = exec (.identity p ml) taken) ∧
      (∀ who, box.pending = some (2, ml.toNat, who) → exec (.certs p ml) s = exec (.certs p ml) taken) ∧
      (∀ who, box.pending = some (3, ml.toNat, who) → exec (.attest p ml) s = exec (.attest p ml) taken) ∧
      (box.pending = some (4, ml.toNat, st) →
        gives 0 [] { taken with ctl := { taken.ctl with staging := s.ctl.staging ++ request } } (.fwstage ⟨p, st⟩ ml)) ∧
      (∀ good : ImageCheck, box.pending = some (5, ml.toNat, st) → exec (.fwcommit ⟨p, st⟩ ml good) s = .next (commits taken good)) ∧
      (box.pending = none →
        (∃ reply, gives 0 reply s (.identity p ml) ∧ reply.length = 146 ∧ (reply.getD 0 0 = 0 ∨ reply.getD 0 0 = 1) ∧
          (reply.drop 1).take 4 = leBytes 4 s.ctl.stepping.toNat) ∧
        (∃ reply, gives 0 reply s (.certs p ml) ∧ reply.length ≤ 3840) ∧
        (∃ reply, gives 0 reply s (.attest p ml) ∧ reply.length = 348 ∧ reply.take 64 = box.bytes 0 64 ∧
          (∀ image, s.ctl.running = some image → (reply.drop 128).take 64 = sha512 image) ∧
          (reply.drop 192).take 4 = leBytes 4 s.ctl.stepping.toNat ∧ (reply.getD 196 0 = 0 ∨ reply.getD 196 0 = 1) ∧
          (reply.drop 197).take 1 = leBytes 1 s.ctl.stage ∧ (reply.drop 198).take 2 = leBytes 2 s.ctl.devid ∧
          (reply.drop 200).take 8 = leBytes 8 s.ctl.featGrant.toNat ∧ (reply.drop 208).take 8 = leBytes 8 s.ctl.boots) ∧
        (s.owns st = true → gives 0 [] { s with ctl := { s.ctl with staging := s.ctl.staging ++ request } } (.fwstage ⟨p, st⟩ ml)) ∧
        (s.owns st = false → exec (.fwstage ⟨p, st⟩ ml) s = .next (refused s)) ∧
        (∀ good : ImageCheck,
          (s.owns st = true → exec (.fwcommit ⟨p, st⟩ ml good) s = .next (commits s good)) ∧
          (s.owns st = false → exec (.fwcommit ⟨p, st⟩ ml good) s = .next (refused s))))) ∧
    (1 ≤ s.ctl.stage → s.posting (.port p) = false → ∀ t : State, t = s.storeCommand (.port p) (Config.mmioBase + 0x60) v →
      t.ctl.irqmask (.port p) = v.setWidth 6 ∧ ∀ st', st' ≠ .port p → t.ctl.irqmask st' = s.ctl.irqmask st')

/-- 13 R317; 15 R344, R347, R358, R361, R362: power-good and hot reset leave stage 0 with nothing bound, the fuses as they were, and a committed image
as the one that runs; the ROM check, the end of bring-up, a lost link and a refresh change what the rules say. A critical trip halts every ACTIVE
region, completes every queued region command with NOTREADY, powers the compute dies down, leaves stage 1 and logs cause 5. An error in control state
fences the cluster and logs cause 6; where a crew holds it, the crew is frozen, and a notice with ECCUNCORR and DETAIL 0xFF goes to the fault queue
and binds a handler. That a reset keeps or loses HBM is entries 1 and 34; that the ROM's answer is an input, given once for an image, is entry 21; how
long THROTTLE's cause bits stay is entry 36; what a trip leaves of the die is entry 53. The form of the notice of an error in control state (KIND 5,
the cluster's field, a handler) and the cluster's control address in the log's record are the model's choices of entry 37. -/
def Obligations.PowerStagesAndHealth : Prop :=
  ∀ (s : State) (p : Port) (m : Telemetry) (k : Nat) (good : Bool) (failed : List Nat),
    let level := s.ctl.throttle.toNat % 16
    let hot := ∃ j ∈ m.junction, 16 * 105 < j
    let critical := fun (x : Telemetry) => (∃ j ∈ x.junction, 16 * 115 < j) ∨ ∃ j ∈ x.stackTemp, 16 * 95 < j
    let above := 1000 * Nat.min 3400 (Nat.max 1000 s.ctl.powercap.toNat) < m.power
    let fuses := fun (t : State) => t.ctl.stepping = s.ctl.stepping ∧ t.ctl.featOffer = s.ctl.featOffer ∧ t.ctl.dieGroups = s.ctl.dieGroups ∧
      t.ctl.rollback = s.ctl.rollback
    let runs := fun (t : State) => (∀ i, s.ctl.committed = some i → t.ctl.running = some i ∧ t.ctl.romOk = none) ∧
      (s.ctl.committed = none → t.ctl.running = s.ctl.running ∧ t.ctl.romOk = s.ctl.romOk)
    (∃ t : State, exec .powerGood s = .next t ∧ t.ctl.stage = 0 ∧ t.mem = [] ∧ t.ctxs = [] ∧ t.clusters = [] ∧ t.cores = [] ∧ t.engines = [] ∧
      t.co = Coordinator.reset ∧ t.io = Links.reset ∧ t.ctl.boots = s.ctl.boots + 1 ∧ fuses t ∧ runs t) ∧
    (∃ t : State, exec .cxlHotReset s = .next t ∧ t.ctl.stage = 0 ∧ t.ctxs = [] ∧ t.clusters = [] ∧ fuses t ∧ runs t) ∧
    (s.ctl.stage = 0 → ∀ ok : Bool, ok = s.ctl.romOk.getD good →
      exec (.romCheckEnd good) s = .next { s with ctl := { s.ctl with stage := 1, fwerr := !ok, romOk := some ok } }) ∧
    (s.ctl.stage = 1 → exec (.romCheckEnd good) s = .next (if s.ctl.fwerr then s else { s with ctl := { s.ctl with stage := 2 } })) ∧
    (s.ctl.stage = 2 → s.ctl.trained = false → ∃ t : State, exec (.bringUpEnd failed) s = .next t ∧ t.ctl = { s.ctl with trained := true } ∧
      ∀ k ∈ failed, k < 256 → (t.cluster k).fenced = true) ∧
    (s.owns (.port p) = true → exec (.linkDown p) s = .next { s with ctl := { s.ctl with owner := 0 } }) ∧
    (s.owns (.port p) = false → exec (.linkDown p) s = .next s) ∧
    (s.ctl.stage = 0 → exec (.telemetryRefresh m) s = .next s) ∧
    (1 ≤ s.ctl.stage → (s.ctl.stage = 1 ∨ ¬ critical m) → ∃ t : State, exec (.telemetryRefresh m) s = .next t ∧ t.ctl.telemetry = m ∧
      t.ctl.stage = s.ctl.stage ∧ t.ctxs = s.ctxs ∧
      (hot → t.ctl.throttle.toNat % 16 = Nat.min 8 (level + 1) ∧ t.ctl.throttle.getLsbD 5 = true ∧ t.ctl.irqstat.getLsbD 3 = true) ∧
      (above → t.ctl.throttle.toNat % 16 = Nat.min 8 (level + 1) ∧ t.ctl.throttle.getLsbD 4 = true ∧
        (level = 8 → t.ctl.irqstat.getLsbD 3 = true)) ∧
      (¬ hot → ¬ above → s.ctl.coolFor < 9 → t.ctl.throttle = s.ctl.throttle) ∧
      (¬ hot → ¬ above → 9 ≤ s.ctl.coolFor → m.power * 100 < 1000 * Nat.min 3400 (Nat.max 1000 s.ctl.powercap.toNat) * 95 →
        t.ctl.throttle.toNat % 16 = level - 1)) ∧
    (2 ≤ s.ctl.stage → critical m → exec (.telemetryRefresh m) s =
      exec .criticalTrip { s with ctl := { s.ctl.throttled m with telemetry := m } }) ∧
    (2 ≤ s.ctl.stage → critical s.ctl.telemetry → ∃ t : State, exec .criticalTrip s = .next t ∧ t.ctl.stage = 1 ∧ t.ctxs = [] ∧ t.clusters = [] ∧
      t.cores = [] ∧ t.engines = [] ∧ t.ctl.regcmd = [] ∧ t.ctl.irqstat.getLsbD 3 = true ∧ t.co.resumes = [] ∧ t.co.chosen = [] ∧
      (SMap.wf s.co.regions = true → (∀ e ∈ s.co.regions, e.1 = e.2.id) → ∀ id r, s.region? id = some r → r.state = .active →
        (t.region? id).map (·.state) = some .halted) ∧
      (let queued := s.ctl.regcmd.length + s.co.preempts.length
       t.ctl.seq = s.ctl.seq + BitVec.ofNat 16 queued ∧ (0 < queued → t.ctl.result = 4)) ∧
      ((∃ cycle, t.ctl.log.find? ((t.ctl.logTail - 1).toNat % 64) = some ⟨5, 5, 0, 0, cycle⟩) ∨ 0 < t.ctl.lost)) ∧
    (¬ critical s.ctl.telemetry → exec .criticalTrip s = .next s) ∧
    (256 ≤ k → exec (.controlStateEcc k) s = .next s) ∧
    (k < 256 →
      let logged := (s.setCluster k { s.cluster k with fenced := true }).logDevice 6 5 (word (s.phys (clctlAddr k))) ((s.crewRegion? k).getD 0)
      ((logged.cluster k).fenced = true ∧ logged.mem = s.mem ∧ ((s.ctl.logTail - s.ctl.logHead).toNat ≠ 64 →
        logged.ctl.log.find? (s.ctl.logTail.toNat % 64) =
          some ⟨6, 5, word (s.phys (clctlAddr k)), (s.crewRegion? k).getD 0 % 2 ^ 32, s.cycleOf 0⟩)) ∧
      (s.crew? k = none → exec (.controlStateEcc k) s = .next logged) ∧
      (∀ n r, s.crew? k = some (n, r) → exec (.controlStateEcc k) s = .next ((logged.freezeCrew k).postRecord k (controlNotice k) none) ∧
        (let t := logged.freezeCrew k
         (t.cluster k).frozen = true ∧ (t.cluster k).fenced = true ∧ t.mem = s.mem ∧
         (t.cluster k).timers = stopTimers (s.cycleOf (dieOfCluster k)) (s.cluster k).timers ∧
         ∀ c x, s.ctx? c = some x → t.ctx? c = some (if clusterOf c = k ∧ x.level = .user then { x with held := true } else x))) ∧
      (let notice := controlNotice k
       let b := notice.body
       notice.handler = true ∧ field (b.extractLsb' 0 64) 23 16 = k ∧ field (b.extractLsb' 64 64) 39 32 = 14 ∧
         field (b.extractLsb' 64 64) 47 40 = 0xFF ∧ field (b.extractLsb' 448 64) 7 4 = 5) ∧
      (∀ (u t : State) (pos : Word) (region : Nat) (notice : FaultRecord), u.crewRegion? k = some region → u.handlerRoom k = true →
        notice.handler = true →
        u.faultEnq { u.mxWho k with place := some (.row (.faultQueueRetry (.notice k))) } (leBytes 64 notice.body.toNat) = (t, .done pos) →
          u.postRecord k notice none = (t.countRecord k).queueHandler k ⟨notice.slot, pos, notice.pc, notice.info, notice.addr⟩))

/-- 04 R85 to R92, and the formats of chapters 05 to 08: a word decodes to a swarm instruction exactly where that instruction is well formed and the
word is its encoding. So every operand at every value that its field admits is read back, and a word with a bit set that must be zero decodes to none.
Bit [4] of AMO's function is entry 20. -/
def Obligations.SwarmWordsRoundTrip : Prop :=
  ∀ (i : Instr) (w : Word32), reads w i ↔ (i.WellFormed ∧ encodeSwarm i = some w)

/-- 09 R212 to R222: the bits of every well-formed op of a matrix unit decode to it, and so does a bundle line that holds it alone. The other way, the
head and tail that decode to an op are the encoding of it, but for P where PE is 0, which the model does not look at (entry 13). -/
def Obligations.MxOpsRoundTrip : Prop :=
  (∀ (i : Instr) (x : OpBits), i.WellFormed → encodeOp i = some x → decodeOp x = .ok i ∧ decodeBundle (lineOfOp x) 0 = .ok [i]) ∧
  ∀ (i : Instr) (x : OpBits), decodeOp x = .ok i → x.tail.toNat < 2 ^ (8 * tailLen x.tlen) →
    let openP : BitVec 64 := match x.tlen.toNat with
      | 0 => 0
      | 2 => if x.cls = 3 ∨ x.tail.getLsbD 18 = true then 0 else 0x38000
      | _ => if x.tail.getLsbD 13 = true then 0 else 0x1C00
    i.WellFormed ∧ encodeOp i = some { x with tail := x.tail &&& ~~~openP }

/-- 04 Worked encodings, R91, R93; 09 A line, worked: the words and the line that the spec works out field by field decode to the instructions that it
gives; the zero word and 0xFFFF_FFFF decode to none. -/
def Obligations.DecodedWords : Prop :=
  reads 0x00A63801 (.add 5 6 7) ∧ reads 0x78220010 (.ld 1 2 16) ∧ reads 0x9C220346 (.memordLd 1 2 .die) ∧
  reads 0xA0895280 (.amoAdd 4 9 10 .d .crew .rel) ∧ reads 0x4060FFFD (.beq 3 0 0xFFFD) ∧ reads 0xD4000002 .endTask ∧
  (∀ i, ¬ reads 0 i ∧ ¬ reads 0xFFFFFFFF i) ∧
  let line : BitVec 512 := 0x0000000A000000002422000200000400 <<< 384 ||| 0xE900E74140A320A2E4E14065
  decodeBundle line 0 = .ok [.sldi 1 10] ∧
  decodeBundle line 1 = .ok [.vadd 2 2 1 .s (some 1), .xexp2 3 2 none, .loop 1 0 1] ∧ decodeBundle line 2 = .ok [.halt]

/-- 01 R10, 04 R93, 10 R226, 09 R223: what a step is. Where nothing is due and a core's turn is not too late, the context that issues next runs
exactly the instruction that the word at its PC decodes to, with its issue slot taken; a word that decodes to none and a fetch that fails fault. The
word is that of the I-cache's line where it has it. A row of the table that is taken as a turn runs as itself. A unit that tries a bundle of one op,
which nothing holds, runs that op's check and then its effect, and MXPC and the bundle count advance. The turn itself, what is due before it, the
place that a turn takes in its s-cycle, and that nobody acts after a step are the model's own (entry 3); the reply that has a held instruction made
again and the places of a row's requests are entry 12; that MXPC advances before an S op performs, and the count after it, is entry 51. -/
def Obligations.StepRunsDecodedInstruction : Prop :=
  ∀ (s s1 : State) (l : List Turn),
    let after := fun (r : Host.Outcome State Fault Refusal) => match r with
      | .next u => Host.Outcome.next { u.settleRow with actor := .device }
      | .fault f => .fault f
      | .refused f => .refused f
    let comes := fun (turn : Turn) => s.turns = turn :: l ∧ s.due = none ∧ s.tooLate turn = false
    (∀ n c x, comes (.core n) → ∀ t : State, t = ({ s with turns := l } : State).atPlace (.core n) → t.nextReady n = some c → t.ctx? c = some x →
      (∀ w, t.fetch c x = (s1, .word w) →
        (∀ i, reads w i → step s = after (exec i { (s1.dropWaits c).issued c with actor := .context c w, row := none })) ∧
        ((∀ i, ¬ reads w i) → step s = after (exec (.illegalWord w) { (s1.dropWaits c).issued c with actor := .context c w, row := none }))) ∧
      (∀ f, t.fetch c x = (s1, .failed f) → step s = after (exec .fetchFault { t.issued c with actor := .context c 0, row := none })) ∧
      (∀ pa v, t.xlate (t.whoOf c x) Need.fetch anyPlace x.pc = (s1, .ok pa) → (s1.core (coreOf c)).icache.find? (pa / 64) = some v →
        t.fetch c x = (s1, .word (BitVec.ofNat 32 (leNat (((leBytes 64 v.toNat).drop (pa % 64)).take 4)))))) ∧
    (∀ i, comes (.op i) → ∀ t : State, t = ({ s with turns := l } : State).atPlace (.op i) →
      let r := exec i { t with actor := .device, row := some (.row (rowKey i), false) }
      ((∀ c q, i ≠ .memoryReply c q) → step s = after r) ∧
      (∀ c q, i = .memoryReply c q →
        (t.remade c = none → step s = after r) ∧
        (∀ w j t1 t2, t.remade c = some (w, j) → r = .next t1 → exec j { t1.settleRow with actor := .context c w, row := none } = .next t2 →
          step s = .next { t2.settleRow.settle c with actor := .device }))) ∧
    (∀ k u i t1, s.units.findSome? s.mxEvent = none → s.units.find? s.triesNow = some (k, u) → (s.mx k u).fetch = .ok [i] →
      s.opHeld k (s.mx k u) i = false → (s.mx k u).sldFree ≤ s.mnow → s.giveHeld k u i = false →
      exec i { s with actor := .mx k u .check 0, row := none } = .next t1 →
        let t := t1.settleRow
        ((t.mx k u).st = .faulted → step s = .next { t with actor := .device }) ∧
        ((t.mx k u).st ≠ .faulted → inS i = false → ∀ t2, exec i { t with actor := .mx k u .perform 0, row := none } = .next t2 →
          step s = .next { (t2.settleRow.advance k u).number k u with actor := .device }) ∧
        ((t.mx k u).st ≠ .faulted → inS i = true → ∀ t2, exec i { t.advance k u with actor := .mx k u .perform 0, row := none } = .next t2 →
          step s = .next { t2.settleRow.number k u with actor := .device }))

/-- 01 R36, R11: memory keeps the model's canonical form (entry 1) in every step of every agent, from any state: addresses rise and no listed byte
equals what an unlisted one reads as, so that equal memories are equal data. -/
def Obligations.StepKeepsMemoryCanonical : Prop :=
  ∀ s t : State, memWf s.mem = true → step s = .next t → memWf t.mem = true

/-- 15 R344, 01 R36: the memory after reset is in canonical form, with nothing listed, and the device is in stage 0 with no context bound. -/
def Obligations.ResetMemoryCanonical : Prop :=
  memWf State.reset.mem = true ∧ (∀ a, memByte State.reset.mem a = memAbsent) ∧ State.reset.ctl.stage = 0 ∧
  (∀ c, State.reset.ctx? c = none) ∧ ∀ k, State.reset.crew? k = none
end

