-- ==== Sys2Proof/Laws/Maps.lean ====
section
/-! SUPPORT. Laws of sparse maps: what reading gives after a write, and that a write keeps the keys rising. -/
namespace Sys2Proof.Machine

@[simp] theorem SMap.find?_nil {α : Type} (k : Nat) : SMap.find? ([] : SMap α) k = none := rfl

@[simp] theorem SMap.find?_insert_self {α : Type} (m : SMap α) (k : Nat) (v : α) : (m.insert k v).find? k = some v := by
  induction m with
  | nil => simp [SMap.insert, SMap.find?]
  | cons e m ih =>
    obtain ⟨j, w⟩ := e
    simp only [SMap.insert]
    split
    · simp [SMap.find?, *]
    · split <;> simp [SMap.find?]

theorem SMap.find?_insert_ne {α : Type} (m : SMap α) {k j : Nat} (v : α) (h : j ≠ k) : (m.insert k v).find? j = m.find? j := by
  induction m with
  | nil =>
    have h1 : ¬ k = j := fun e => h e.symm
    simp [SMap.insert, SMap.find?, h1]
  | cons e m ih =>
    obtain ⟨i, w⟩ := e
    simp only [SMap.insert]
    split
    · simp only [SMap.find?, ih]
    · split
      · subst_vars
        have h1 : ¬ i = j := fun e => h e.symm
        simp [SMap.find?, h1]
      · simp only [SMap.find?]
        have hk : k < i := by omega
        by_cases h1 : k < j
        · simp [h1]
        · have h2 : ¬ i < j := by omega
          have h3 : ¬ i = j := by omega
          have h4 : ¬ k = j := fun e => h e.symm
          simp [h1, h2, h3, h4]

theorem SMap.find?_insert {α : Type} (m : SMap α) (k j : Nat) (v : α) :
    (m.insert k v).find? j = if j = k then some v else m.find? j := by
  split
  · subst_vars; simp
  · exact SMap.find?_insert_ne m v ‹_›

@[simp] theorem SMap.getD_insert_self {α : Type} (m : SMap α) (k : Nat) (v d : α) : (m.insert k v).getD k d = v := by simp [SMap.getD]

theorem SMap.getD_insert_ne {α : Type} (m : SMap α) {k j : Nat} (v d : α) (h : j ≠ k) : (m.insert k v).getD j d = m.getD j d := by
  simp [SMap.getD, SMap.find?_insert_ne m v h]

theorem SMap.getD_insert {α : Type} (m : SMap α) (k j : Nat) (v d : α) : (m.insert k v).getD j d = if j = k then v else m.getD j d := by
  simp only [SMap.getD, SMap.find?_insert]; split <;> rfl

theorem SMap.all_insert {α : Type} (m : SMap α) (k : Nat) (v : α) (p : Nat → Bool) (hm : m.all (fun e => p e.1) = true) (hk : p k = true) :
    (m.insert k v).all (fun e => p e.1) = true := by
  induction m with
  | nil => simp [SMap.insert, hk]
  | cons e m ih =>
    obtain ⟨j, w⟩ := e
    simp only [List.all_cons, Bool.and_eq_true] at hm
    simp only [SMap.insert]
    split
    · simp only [List.all_cons, hm.1, ih hm.2, Bool.and_self]
    · split
      · simp only [List.all_cons, hk, hm.2, Bool.and_self]
      · simp only [List.all_cons, hk, hm.1, hm.2, Bool.and_self]

theorem SMap.wf_insert {α : Type} (m : SMap α) (k : Nat) (v : α) (h : SMap.wf m = true) : SMap.wf (m.insert k v) = true := by
  induction m with
  | nil => rfl
  | cons e m ih =>
    obtain ⟨j, w⟩ := e
    simp only [SMap.wf, Bool.and_eq_true] at h
    simp only [SMap.insert]
    split
    · simp only [SMap.wf, Bool.and_eq_true]
      exact ⟨SMap.all_insert m k v (fun n => decide (j < n)) h.1 (by simpa using ‹j < k›), ih h.2⟩
    · split
      · subst_vars; simpa [SMap.wf] using h
      · simp only [SMap.wf, List.all_cons, Bool.and_eq_true, decide_eq_true_eq, List.all_eq_true] at h ⊢
        refine ⟨⟨by omega, fun e he => ?_⟩, h.1, h.2⟩
        have := h.1 e he
        omega

theorem SMap.find?_none_of_lt {α : Type} (m : SMap α) (k : Nat) (h : m.all (fun e => decide (k < e.1)) = true) : m.find? k = none := by
  cases m with
  | nil => rfl
  | cons e m =>
    obtain ⟨j, w⟩ := e
    simp only [List.all_cons, Bool.and_eq_true, decide_eq_true_eq] at h
    have h1 : ¬ j < k := by omega
    have h2 : ¬ j = k := by omega
    simp [SMap.find?, h1, h2]

theorem SMap.find?_erase_self {α : Type} (m : SMap α) (k : Nat) (h : SMap.wf m = true) : (m.erase k).find? k = none := by
  induction m with
  | nil => rfl
  | cons e m ih =>
    obtain ⟨j, w⟩ := e
    simp only [SMap.wf, Bool.and_eq_true] at h
    simp only [SMap.erase]
    split
    · simp [SMap.find?, *]
    · split
      · subst_vars; exact SMap.find?_none_of_lt _ _ h.1
      · have h1 : ¬ j < k := by assumption
        have h2 : ¬ j = k := by assumption
        simp [SMap.find?, h1, h2]

theorem SMap.all_erase {α : Type} (m : SMap α) (k : Nat) (p : Nat → Bool) (hm : m.all (fun e => p e.1) = true) :
    (m.erase k).all (fun e => p e.1) = true := by
  induction m with
  | nil => rfl
  | cons e m ih =>
    obtain ⟨j, w⟩ := e
    simp only [List.all_cons, Bool.and_eq_true] at hm
    simp only [SMap.erase]
    split
    · simp only [List.all_cons, hm.1, ih hm.2, Bool.and_self]
    · split
      · exact hm.2
      · simp only [List.all_cons, hm.1, hm.2, Bool.and_self]

theorem SMap.wf_erase {α : Type} (m : SMap α) (k : Nat) (h : SMap.wf m = true) : SMap.wf (m.erase k) = true := by
  induction m with
  | nil => rfl
  | cons e m ih =>
    obtain ⟨j, w⟩ := e
    simp only [SMap.wf, Bool.and_eq_true] at h
    simp only [SMap.erase]
    split
    · simp only [SMap.wf, Bool.and_eq_true]
      exact ⟨SMap.all_erase m k (fun n => decide (j < n)) h.1, ih h.2⟩
    · split
      · exact h.2
      · simpa [SMap.wf] using h

theorem SMap.find?_erase_ne {α : Type} (m : SMap α) {k j : Nat} (hj : j ≠ k) (h : SMap.wf m = true) : (m.erase k).find? j = m.find? j := by
  induction m with
  | nil => rfl
  | cons e m ih =>
    obtain ⟨i, w⟩ := e
    simp only [SMap.wf, Bool.and_eq_true] at h
    simp only [SMap.erase]
    split
    · simp only [SMap.find?, ih h.2]
    · split
      · subst_vars
        simp only [SMap.find?]
        by_cases h1 : i < j
        · simp [h1]
        · have h2 : ¬ i = j := fun e => hj e.symm
          simp only [h1, h2, if_false]
          refine SMap.find?_none_of_lt _ _ ?_
          simp only [List.all_eq_true, decide_eq_true_eq] at h ⊢
          intro e he
          have := h.1 e he
          omega
      · rfl

end Sys2Proof.Machine
end

