-- ==== Sys2Proof/Laws/Memory.lean ====
section
/-! SUPPORT. Laws of memory: its canonical form is kept, what a read gives after a write, and that equal bytes are equal memories. -/
namespace Sys2Proof.Machine

theorem memByte_nil (a : Nat) : memByte [] a = memAbsent := rfl

theorem memByte_cons (j a : Nat) (v : Byte) (m : List Host.Cell) :
    memByte ((j, v) :: m) a = if j < a then memByte m a else if j = a then v else memAbsent := by
  unfold memByte
  rw [show memFrom ((j, v) :: m) a = if j < a then memFrom m a else (j, v) :: m from rfl]
  by_cases h : j < a <;> simp only [h, if_true, if_false]

/-- The canonical form as a fact about pairs: addresses rise, and no byte is the default. -/
theorem memWf_iff (m : List Host.Cell) :
    memWf m = true ↔ m.Pairwise (fun c e => c.1 < e.1) ∧ ∀ c ∈ m, c.2 ≠ memAbsent := by
  induction m with
  | nil => simp [memWf]
  | cons c m ih =>
    obtain ⟨a, b⟩ := c
    simp only [memWf, Bool.and_eq_true, bne_iff_ne, ih, List.pairwise_cons, List.mem_cons, forall_eq_or_imp, List.all_eq_true,
      decide_eq_true_eq]
    exact ⟨fun h => ⟨⟨h.1.2, h.2.1⟩, h.1.1, h.2.2⟩, fun h => ⟨⟨h.2.1, h.1.1⟩, h.1.2, h.2.2⟩⟩

theorem memWf_tail {c : Host.Cell} {m : List Host.Cell} (h : memWf (c :: m) = true) : memWf m = true := by
  rw [memWf_iff] at h ⊢; exact ⟨h.1.of_cons, fun e he => h.2 e (List.mem_cons_of_mem _ he)⟩

theorem memWf_cons_lt {c : Host.Cell} {m : List Host.Cell} (h : memWf (c :: m) = true) : ∀ e ∈ m, c.1 < e.1 := by
  rw [memWf_iff] at h; exact (List.pairwise_cons.mp h.1).1

theorem memWf_of_sublist {m m' : List Host.Cell} (hs : m'.Sublist m) (h : memWf m = true) : memWf m' = true := by
  rw [memWf_iff] at h ⊢; exact ⟨h.1.sublist hs, fun e he => h.2 e (hs.subset he)⟩

theorem memBelow_sublist (m : List Host.Cell) (a : Nat) : (memBelow m a).Sublist m := by
  induction m with
  | nil => exact List.Sublist.refl _
  | cons c m ih => obtain ⟨j, v⟩ := c; unfold memBelow; split <;> simp_all

theorem memFrom_sublist (m : List Host.Cell) (a : Nat) : (memFrom m a).Sublist m := by
  induction m with
  | nil => exact List.Sublist.refl _
  | cons c m ih =>
    obtain ⟨j, v⟩ := c
    unfold memFrom
    split
    · exact ih.cons _
    · exact List.Sublist.refl _

theorem memWf_memBelow {m : List Host.Cell} (a : Nat) (h : memWf m = true) : memWf (memBelow m a) = true :=
  memWf_of_sublist (memBelow_sublist m a) h

theorem memWf_memFrom {m : List Host.Cell} (a : Nat) (h : memWf m = true) : memWf (memFrom m a) = true :=
  memWf_of_sublist (memFrom_sublist m a) h

theorem memBelow_lt (m : List Host.Cell) (a : Nat) : ∀ c ∈ memBelow m a, c.1 < a := by
  induction m with
  | nil => simp [memBelow]
  | cons c m ih =>
    obtain ⟨j, v⟩ := c
    unfold memBelow
    split
    · intro e he
      rcases List.mem_cons.mp he with rfl | he
      · assumption
      · exact ih e he
    · simp

theorem memFrom_le {m : List Host.Cell} (a : Nat) (h : memWf m = true) : ∀ c ∈ memFrom m a, a ≤ c.1 := by
  induction m with
  | nil => simp [memFrom]
  | cons c m ih =>
    obtain ⟨j, v⟩ := c
    unfold memFrom
    split
    · exact ih (memWf_tail h)
    · intro e he
      rcases List.mem_cons.mp he with rfl | he
      · simp only; omega
      · have := memWf_cons_lt h e he; simp only at this; omega

theorem memCells_range (a : Nat) (bs : List Byte) : ∀ c ∈ memCells a bs, a ≤ c.1 ∧ c.1 < a + bs.length ∧ c.2 ≠ memAbsent := by
  induction bs generalizing a with
  | nil => simp [memCells]
  | cons b l ih =>
    intro c hc
    unfold memCells at hc
    split at hc
    · have := ih (a + 1) c hc; simp only [List.length_cons]; exact ⟨by omega, by omega, this.2.2⟩
    · rcases List.mem_cons.mp hc with rfl | hc
      · simp only [List.length_cons]; exact ⟨by omega, by omega, by assumption⟩
      · have := ih (a + 1) c hc; simp only [List.length_cons]; exact ⟨by omega, by omega, this.2.2⟩

theorem memWf_memCells (a : Nat) (bs : List Byte) : memWf (memCells a bs) = true := by
  induction bs generalizing a with
  | nil => rfl
  | cons b l ih =>
    unfold memCells
    split
    · exact ih (a + 1)
    · rw [memWf_iff]
      refine ⟨List.pairwise_cons.mpr ⟨fun e he => ?_, ((memWf_iff _).mp (ih (a + 1))).1⟩, fun e he => ?_⟩
      · have := memCells_range (a + 1) l e he; simp only; omega
      · rcases List.mem_cons.mp he with rfl | he
        · assumption
        · exact (memCells_range (a + 1) l e he).2.2

/-- Three runs of cells that follow one another are canonical together. -/
theorem memWf_append {l r : List Host.Cell} (hl : memWf l = true) (hr : memWf r = true) (h : ∀ c ∈ l, ∀ e ∈ r, c.1 < e.1) :
    memWf (l ++ r) = true := by
  rw [memWf_iff] at *
  refine ⟨List.pairwise_append.mpr ⟨hl.1, hr.1, h⟩, fun e he => ?_⟩
  rcases List.mem_append.mp he with he | he
  · exact hl.2 e he
  · exact hr.2 e he

/-- A write keeps the canonical form. -/
theorem memWf_memWrite {m : List Host.Cell} (a : Nat) (bs : List Byte) (h : memWf m = true) : memWf (memWrite m a bs) = true := by
  unfold memWrite
  refine memWf_append (memWf_append (memWf_memBelow a h) (memWf_memCells a bs) ?_) (memWf_memFrom _ h) ?_
  · intro c hc e he
    have := memBelow_lt m a c hc; have := memCells_range a bs e he; omega
  · intro c hc e he
    have h3 := memFrom_le (a + bs.length) h e he
    rcases List.mem_append.mp hc with hc | hc
    · have := memBelow_lt m a c hc; omega
    · have := memCells_range a bs c hc; omega

/-- A move keeps the canonical form. -/
theorem memWf_memMove {m : List Host.Cell} (src dst n : Nat) (h : memWf m = true) : memWf (memMove m src dst n) = true := by
  unfold memMove memSlice
  have hs : memWf (memBelow (memFrom m src) (src + n)) = true := memWf_memBelow _ (memWf_memFrom _ h)
  have hlo : ∀ c ∈ memBelow (memFrom m src) (src + n), src ≤ c.1 ∧ c.1 < src + n := fun c hc =>
    ⟨memFrom_le src h c ((memBelow_sublist _ _).subset hc), memBelow_lt _ _ c hc⟩
  have hmv : memWf ((memBelow (memFrom m src) (src + n)).map (fun c => (c.1 - src + dst, c.2))) = true := by
    rw [memWf_iff] at hs ⊢
    refine ⟨List.pairwise_map.mpr (hs.1.imp_of_mem (fun ha hb hab => ?_)), fun e he => ?_⟩
    · have := hlo _ ha; have := hlo _ hb; simp only; omega
    · obtain ⟨c, hc, rfl⟩ := List.mem_map.mp he; exact hs.2 c hc
  refine memWf_append (memWf_append (memWf_memBelow _ h) hmv ?_) (memWf_memFrom _ h) ?_
  · intro c hc e he
    obtain ⟨f, hf, rfl⟩ := List.mem_map.mp he
    have := memBelow_lt m dst c hc; have := hlo f hf; simp only; omega
  · intro c hc e he
    have h3 := memFrom_le (dst + n) h e he
    rcases List.mem_append.mp hc with hc | hc
    · have := memBelow_lt m dst c hc; omega
    · obtain ⟨f, hf, rfl⟩ := List.mem_map.mp hc; have := hlo f hf; simp only; omega

theorem memByte_of_lt {m : List Host.Cell} {x : Nat} (h : ∀ c ∈ m, x < c.1) : memByte m x = memAbsent := by
  cases m with
  | nil => rfl
  | cons c m =>
    obtain ⟨j, v⟩ := c
    have := h (j, v) (by simp)
    simp only at this
    rw [memByte_cons, if_neg (by omega), if_neg (by omega)]

theorem memByte_append_of_lt {l r : List Host.Cell} {x : Nat} (h : ∀ c ∈ l, c.1 < x) : memByte (l ++ r) x = memByte r x := by
  induction l with
  | nil => rfl
  | cons c l ih =>
    obtain ⟨j, v⟩ := c
    have := h (j, v) (by simp)
    simp only at this
    rw [List.cons_append, memByte_cons, if_pos this, ih (fun e he => h e (by simp [he]))]

theorem memByte_append_of_gt {l r : List Host.Cell} {x : Nat} (h : ∀ c ∈ r, x < c.1) : memByte (l ++ r) x = memByte l x := by
  induction l with
  | nil => simpa [memByte_nil] using memByte_of_lt h
  | cons c l ih =>
    obtain ⟨j, v⟩ := c
    rw [List.cons_append, memByte_cons, memByte_cons, ih]

theorem memByte_memBelow (m : List Host.Cell) {a x : Nat} (hx : x < a) : memByte (memBelow m a) x = memByte m x := by
  induction m with
  | nil => rfl
  | cons c m ih =>
    obtain ⟨j, v⟩ := c
    rw [memByte_cons]
    unfold memBelow
    split
    · rw [memByte_cons, ih]
    · rw [if_neg (by omega), if_neg (by omega), memByte_nil]

theorem memByte_memFrom (m : List Host.Cell) {a x : Nat} (hx : a ≤ x) : memByte (memFrom m a) x = memByte m x := by
  induction m with
  | nil => rfl
  | cons c m ih =>
    obtain ⟨j, v⟩ := c
    unfold memFrom
    split
    · rw [ih, memByte_cons, if_pos (by omega)]
    · rfl

theorem memByte_memCells (a : Nat) (bs : List Byte) {x : Nat} (h : a ≤ x) (hx : x < a + bs.length) :
    memByte (memCells a bs) x = bs.getD (x - a) 0 := by
  induction bs generalizing a with
  | nil => simp at hx; omega
  | cons b l ih =>
    have hl : x < a + 1 + l.length := by simp only [List.length_cons] at hx; omega
    unfold memCells
    rcases Nat.eq_or_lt_of_le h with rfl | hlt
    · split
      · rw [memByte_of_lt (fun c hc => by have := memCells_range _ _ c hc; omega)]
        simp [*, memAbsent]
      · rw [memByte_cons]; simp
    · have e : x - a = (x - (a + 1)) + 1 := by omega
      split
      · rw [ih (a + 1) (by omega) hl, e]; rfl
      · rw [memByte_cons, if_pos hlt, ih (a + 1) (by omega) hl, e]; rfl

/-- A byte after a write: the byte written within the range, the old byte elsewhere. -/
theorem memByte_memWrite {m : List Host.Cell} (a : Nat) (bs : List Byte) (x : Nat) (h : memWf m = true) :
    memByte (memWrite m a bs) x = if a ≤ x ∧ x < a + bs.length then bs.getD (x - a) 0 else memByte m x := by
  unfold memWrite
  by_cases h1 : x < a
  · rw [if_neg (by omega), List.append_assoc, memByte_append_of_gt, memByte_memBelow m h1]
    intro c hc
    rcases List.mem_append.mp hc with hc | hc
    · have := memCells_range a bs c hc; omega
    · have := memFrom_le _ h c hc; omega
  · by_cases h2 : x < a + bs.length
    · rw [if_pos ⟨by omega, h2⟩, memByte_append_of_gt (fun c hc => by have := memFrom_le _ h c hc; omega),
        memByte_append_of_lt (fun c hc => by have := memBelow_lt m a c hc; omega), memByte_memCells a bs (by omega) h2]
    · rw [if_neg (by omega), memByte_append_of_lt, memByte_memFrom m (by omega)]
      intro c hc
      rcases List.mem_append.mp hc with hc | hc
      · have := memBelow_lt m a c hc; omega
      · have := memCells_range a bs c hc; omega

theorem memByte_memWrite_outside {m : List Host.Cell} (a : Nat) (bs : List Byte) {x : Nat} (h : memWf m = true)
    (hx : x < a ∨ a + bs.length ≤ x) : memByte (memWrite m a bs) x = memByte m x := by
  rw [memByte_memWrite a bs x h, if_neg (by omega)]

theorem memTake_eq {m : List Host.Cell} (a n : Nat) (h : memWf m = true) (ha : ∀ c ∈ m, a ≤ c.1) :
    memTake m a n = (List.range n).map (fun i => memByte m (a + i)) := by
  induction n generalizing m a with
  | zero => cases m <;> rfl
  | succ n ih =>
    rw [List.range_succ_eq_map, List.map_cons, List.map_map]
    cases m with
    | nil =>
      rw [memTake, ih (a + 1) rfl (by simp)]
      simp only [memByte_nil]
      rfl
    | cons c m =>
      obtain ⟨j, v⟩ := c
      have hj := ha (j, v) (by simp)
      simp only at hj
      unfold memTake
      split
      · subst_vars
        rw [ih (j + 1) (memWf_tail h) (fun e he => by have := memWf_cons_lt h e he; simp only at this; omega)]
        congr 1
        · simp [memByte_cons]
        · refine List.map_congr_left (fun i _ => ?_)
          simp only [Function.comp]
          rw [memByte_cons, if_pos (by omega)]; congr 1; omega
      · rw [ih (a + 1) h (fun e he => by
          rcases List.mem_cons.mp he with rfl | he
          · simp only; omega
          · have := memWf_cons_lt h e he; simp only at this; omega)]
        congr 1
        · rw [memByte_cons, if_neg (by omega), if_neg (by omega)]
        · refine List.map_congr_left (fun i _ => ?_)
          simp only [Function.comp]; congr 1; omega

/-- A read gives the bytes of its range. -/
theorem memRead_eq {m : List Host.Cell} (a n : Nat) (h : memWf m = true) :
    memRead m a n = (List.range n).map (fun i => memByte m (a + i)) := by
  unfold memRead
  rw [memTake_eq a n (memWf_memFrom a h) (memFrom_le a h)]
  exact List.map_congr_left (fun i _ => memByte_memFrom m (by omega))

theorem memTake_length (m : List Host.Cell) (a n : Nat) : (memTake m a n).length = n := by
  induction n generalizing m a with
  | zero => cases m <;> rfl
  | succ n ih =>
    cases m with
    | nil => simp [memTake, ih]
    | cons c m => unfold memTake; split <;> simp [ih]

@[simp] theorem memRead_length (m : List Host.Cell) (a n : Nat) : (memRead m a n).length = n := memTake_length _ _ _

/-- Reads of equal bytes are equal. -/
theorem memRead_congr {m m' : List Host.Cell} (a n : Nat) (h : memWf m = true) (h' : memWf m' = true)
    (hb : ∀ i, i < n → memByte m' (a + i) = memByte m (a + i)) : memRead m' a n = memRead m a n := by
  rw [memRead_eq a n h, memRead_eq a n h']
  exact List.map_congr_left (fun i hi => hb i (List.mem_range.mp hi))

/-- A read of a range that a write does not touch. -/
theorem memRead_memWrite_outside {m : List Host.Cell} (a : Nat) (bs : List Byte) (b n : Nat) (h : memWf m = true)
    (hd : b + n ≤ a ∨ a + bs.length ≤ b) : memRead (memWrite m a bs) b n = memRead m b n :=
  memRead_congr b n h (memWf_memWrite a bs h) (fun i hi => memByte_memWrite_outside a bs h (by omega))

/-- A read of the range written gives the bytes written. -/
theorem memRead_memWrite_self {m : List Host.Cell} (a : Nat) (bs : List Byte) (h : memWf m = true) :
    memRead (memWrite m a bs) a bs.length = bs := by
  rw [memRead_eq a _ (memWf_memWrite a bs h)]
  refine List.ext_getElem (by simp) (fun i h1 h2 => ?_)
  simp only [List.getElem_map, List.getElem_range]
  rw [memByte_memWrite a bs _ h, if_pos ⟨by omega, by omega⟩]
  simp [List.getD_eq_getElem?_getD, List.getElem?_eq_getElem h2]

/-- Canonical memories with the same bytes are equal. -/
theorem mem_ext {m m' : List Host.Cell} (h : memWf m = true) (h' : memWf m' = true) (hb : ∀ a, memByte m a = memByte m' a) : m = m' := by
  induction m generalizing m' with
  | nil =>
    cases m' with
    | nil => rfl
    | cons c m' =>
      obtain ⟨j, v⟩ := c
      have := hb j
      rw [memByte_nil, memByte_cons] at this
      simp only [Nat.lt_irrefl, if_false, if_true] at this
      exact absurd this.symm (((memWf_iff _).mp h').2 (j, v) (by simp))
  | cons c m ih =>
    obtain ⟨i, u⟩ := c
    have hu := ((memWf_iff _).mp h).2 (i, u) (by simp)
    cases m' with
    | nil =>
      have := hb i
      rw [memByte_nil, memByte_cons] at this
      simp only [Nat.lt_irrefl, if_false, if_true] at this
      exact absurd this hu
    | cons c' m' =>
      obtain ⟨j, v⟩ := c'
      have hv := ((memWf_iff _).mp h').2 (j, v) (by simp)
      have key : i = j ∧ u = v := by
        rcases Nat.lt_trichotomy i j with hij | rfl | hij
        · have := hb i
          rw [memByte_cons, memByte_cons] at this
          simp only [Nat.lt_irrefl, if_false, if_true, Nat.not_lt.mpr (Nat.le_of_lt hij), (Nat.ne_of_lt hij).symm] at this
          exact absurd this hu
        · have := hb i
          rw [memByte_cons, memByte_cons] at this
          simp only [Nat.lt_irrefl, if_false, if_true] at this
          exact ⟨rfl, this⟩
        · have := hb j
          rw [memByte_cons, memByte_cons] at this
          simp only [Nat.lt_irrefl, if_false, if_true, Nat.not_lt.mpr (Nat.le_of_lt hij), (Nat.ne_of_lt hij).symm] at this
          exact absurd this.symm hv
      obtain ⟨rfl, rfl⟩ := key
      congr 1
      refine ih (memWf_tail h) (memWf_tail h') (fun a => ?_)
      have := hb a
      rw [memByte_cons, memByte_cons] at this
      by_cases hia : i < a
      · simpa [hia] using this
      · rw [memByte_of_lt (fun e he => by have := memWf_cons_lt h e he; simp only at this; omega),
          memByte_of_lt (fun e he => by have := memWf_cons_lt h' e he; simp only at this; omega)]

@[simp] theorem leBytes_length (n x : Nat) : (leBytes n x).length = n := by
  induction n generalizing x with
  | zero => rfl
  | succ n ih => simp [leBytes, ih]

/-- The number that n bytes of a number hold. -/
theorem leNat_leBytes (n x : Nat) : leNat (leBytes n x) = x % 256 ^ n := by
  induction n generalizing x with
  | zero => simp [leBytes, leNat, Nat.mod_one]
  | succ n ih =>
    have e : (256 : Nat) ^ (n + 1) = 256 * 256 ^ n := by rw [Nat.pow_succ, Nat.mul_comm]
    rw [leBytes, leNat, ih, BitVec.toNat_ofNat, e, Nat.mod_mul]

theorem leNat_lt (bs : List Byte) : leNat bs < 256 ^ bs.length := by
  induction bs with
  | nil => simp [leNat]
  | cons b l ih =>
    simp only [leNat, List.length_cons, Nat.pow_succ]
    have := b.isLt
    omega

/-- The bytes of the number that bytes hold. -/
theorem leBytes_leNat (bs : List Byte) : leBytes bs.length (leNat bs) = bs := by
  induction bs with
  | nil => rfl
  | cons b l ih =>
    simp only [List.length_cons, leBytes, leNat]
    have h1 : (b.toNat + 256 * leNat l) / 256 = leNat l := by have := b.isLt; omega
    rw [h1, ih]
    congr 1
    apply BitVec.eq_of_toNat_eq
    simp only [BitVec.toNat_ofNat]
    have := b.isLt; omega

theorem memWf_poke {s : State} (a : Nat) (bs : List Byte) (h : memWf s.mem = true) : memWf (s.poke a bs).mem = true :=
  memWf_memWrite a bs h

theorem memWf_poke64 {s : State} (a : Nat) (v : Word) (h : memWf s.mem = true) : memWf (s.poke64 a v).mem = true :=
  memWf_memWrite a _ h

/-- A doubleword reads as written. -/
theorem peek64_poke64_self {s : State} (a : Nat) (v : Word) (h : memWf s.mem = true) : (s.poke64 a v).peek64 a = v := by
  unfold State.peek64 State.poke64 State.peek State.poke memNat word
  have := memRead_memWrite_self (m := s.mem) a (leBytes 8 v.toNat) h
  rw [leBytes_length] at this
  simp only [this, leNat_leBytes]
  apply BitVec.eq_of_toNat_eq
  simp only [BitVec.toNat_ofNat]
  have := v.isLt
  omega

/-- A doubleword that a write does not touch reads as before. -/
theorem peek64_poke64_outside {s : State} (a b : Nat) (v : Word) (h : memWf s.mem = true) (hd : b + 8 ≤ a ∨ a + 8 ≤ b) :
    (s.poke64 a v).peek64 b = s.peek64 b := by
  unfold State.peek64 State.poke64 State.peek State.poke memNat
  rw [memRead_memWrite_outside a _ b 8 h (by simpa using hd)]

end Sys2Proof.Machine
end

