-- ==== Sys2Proof/Laws/State.lean ====
section
/-! SUPPORT. What each update of State leaves in each field: true by unfolding, so that no proof unfolds a record update; and what the readers
give after the writers. -/
namespace Sys2Proof.Machine

@[simp] theorem State.setCtx_now (s : State) (c : Nat) (x : Ctx) : (s.setCtx c x).now = s.now := rfl
@[simp] theorem State.setCtx_cycle (s : State) (c : Nat) (x : Ctx) : (s.setCtx c x).cycle = s.cycle := rfl
@[simp] theorem State.setCtx_mem (s : State) (c : Nat) (x : Ctx) : (s.setCtx c x).mem = s.mem := rfl
@[simp] theorem State.setCtx_bad (s : State) (c : Nat) (x : Ctx) : (s.setCtx c x).bad = s.bad := rfl
@[simp] theorem State.setCtx_ctxs (s : State) (c : Nat) (x : Ctx) : (s.setCtx c x).ctxs = s.ctxs.insert c x := rfl
@[simp] theorem State.setCtx_cores (s : State) (c : Nat) (x : Ctx) : (s.setCtx c x).cores = s.cores := rfl
@[simp] theorem State.setCtx_clusters (s : State) (c : Nat) (x : Ctx) : (s.setCtx c x).clusters = s.clusters := rfl
@[simp] theorem State.setCtx_engines (s : State) (c : Nat) (x : Ctx) : (s.setCtx c x).engines = s.engines := rfl
@[simp] theorem State.setCtx_parked (s : State) (c : Nat) (x : Ctx) : (s.setCtx c x).parked = s.parked := rfl
@[simp] theorem State.setCtx_deferrals (s : State) (c : Nat) (x : Ctx) : (s.setCtx c x).deferrals = s.deferrals := rfl
@[simp] theorem State.setCtx_spilled (s : State) (c : Nat) (x : Ctx) : (s.setCtx c x).spilled = s.spilled := rfl
@[simp] theorem State.setCtx_waits (s : State) (c : Nat) (x : Ctx) : (s.setCtx c x).waits = s.waits := rfl
@[simp] theorem State.setCtx_walks (s : State) (c : Nat) (x : Ctx) : (s.setCtx c x).walks = s.walks := rfl
@[simp] theorem State.setCtx_beat (s : State) (c : Nat) (x : Ctx) : (s.setCtx c x).beat = s.beat := rfl
@[simp] theorem State.setCtx_gldms (s : State) (c : Nat) (x : Ctx) : (s.setCtx c x).gldms = s.gldms := rfl
@[simp] theorem State.setCtx_co (s : State) (c : Nat) (x : Ctx) : (s.setCtx c x).co = s.co := rfl
@[simp] theorem State.setCtx_ctl (s : State) (c : Nat) (x : Ctx) : (s.setCtx c x).ctl = s.ctl := rfl
@[simp] theorem State.setCtx_io (s : State) (c : Nat) (x : Ctx) : (s.setCtx c x).io = s.io := rfl
@[simp] theorem State.setCtx_hostOut (s : State) (c : Nat) (x : Ctx) : (s.setCtx c x).hostOut = s.hostOut := rfl
@[simp] theorem State.setCtx_freeUse (s : State) (c : Nat) (x : Ctx) : (s.setCtx c x).freeUse = s.freeUse := rfl
@[simp] theorem State.setCtx_turns (s : State) (c : Nat) (x : Ctx) : (s.setCtx c x).turns = s.turns := rfl
@[simp] theorem State.setCtx_auto (s : State) (c : Nat) (x : Ctx) : (s.setCtx c x).auto = s.auto := rfl
@[simp] theorem State.setCtx_actor (s : State) (c : Nat) (x : Ctx) : (s.setCtx c x).actor = s.actor := rfl
@[simp] theorem State.setCtx_row (s : State) (c : Nat) (x : Ctx) : (s.setCtx c x).row = s.row := rfl

@[simp] theorem State.dropCtx_now (s : State) (c : Nat) : (s.dropCtx c).now = s.now := rfl
@[simp] theorem State.dropCtx_cycle (s : State) (c : Nat) : (s.dropCtx c).cycle = s.cycle := rfl
@[simp] theorem State.dropCtx_mem (s : State) (c : Nat) : (s.dropCtx c).mem = s.mem := rfl
@[simp] theorem State.dropCtx_bad (s : State) (c : Nat) : (s.dropCtx c).bad = s.bad := rfl
@[simp] theorem State.dropCtx_ctxs (s : State) (c : Nat) : (s.dropCtx c).ctxs = s.ctxs.erase c := rfl
@[simp] theorem State.dropCtx_cores (s : State) (c : Nat) : (s.dropCtx c).cores = s.cores := rfl
@[simp] theorem State.dropCtx_clusters (s : State) (c : Nat) : (s.dropCtx c).clusters = s.clusters := rfl
@[simp] theorem State.dropCtx_engines (s : State) (c : Nat) : (s.dropCtx c).engines = s.engines := rfl
@[simp] theorem State.dropCtx_parked (s : State) (c : Nat) : (s.dropCtx c).parked = s.parked := rfl
@[simp] theorem State.dropCtx_deferrals (s : State) (c : Nat) : (s.dropCtx c).deferrals = s.deferrals := rfl
@[simp] theorem State.dropCtx_spilled (s : State) (c : Nat) : (s.dropCtx c).spilled = s.spilled := rfl
@[simp] theorem State.dropCtx_waits (s : State) (c : Nat) : (s.dropCtx c).waits = s.waits := rfl
@[simp] theorem State.dropCtx_walks (s : State) (c : Nat) : (s.dropCtx c).walks = s.walks := rfl
@[simp] theorem State.dropCtx_beat (s : State) (c : Nat) : (s.dropCtx c).beat = s.beat := rfl
@[simp] theorem State.dropCtx_gldms (s : State) (c : Nat) : (s.dropCtx c).gldms = s.gldms := rfl
@[simp] theorem State.dropCtx_co (s : State) (c : Nat) : (s.dropCtx c).co = s.co := rfl
@[simp] theorem State.dropCtx_ctl (s : State) (c : Nat) : (s.dropCtx c).ctl = s.ctl := rfl
@[simp] theorem State.dropCtx_io (s : State) (c : Nat) : (s.dropCtx c).io = s.io := rfl
@[simp] theorem State.dropCtx_hostOut (s : State) (c : Nat) : (s.dropCtx c).hostOut = s.hostOut := rfl
@[simp] theorem State.dropCtx_freeUse (s : State) (c : Nat) : (s.dropCtx c).freeUse = s.freeUse := rfl
@[simp] theorem State.dropCtx_turns (s : State) (c : Nat) : (s.dropCtx c).turns = s.turns := rfl
@[simp] theorem State.dropCtx_auto (s : State) (c : Nat) : (s.dropCtx c).auto = s.auto := rfl
@[simp] theorem State.dropCtx_actor (s : State) (c : Nat) : (s.dropCtx c).actor = s.actor := rfl
@[simp] theorem State.dropCtx_row (s : State) (c : Nat) : (s.dropCtx c).row = s.row := rfl

@[simp] theorem State.setCore_now (s : State) (n : Nat) (x : Core) : (s.setCore n x).now = s.now := rfl
@[simp] theorem State.setCore_cycle (s : State) (n : Nat) (x : Core) : (s.setCore n x).cycle = s.cycle := rfl
@[simp] theorem State.setCore_mem (s : State) (n : Nat) (x : Core) : (s.setCore n x).mem = s.mem := rfl
@[simp] theorem State.setCore_bad (s : State) (n : Nat) (x : Core) : (s.setCore n x).bad = s.bad := rfl
@[simp] theorem State.setCore_ctxs (s : State) (n : Nat) (x : Core) : (s.setCore n x).ctxs = s.ctxs := rfl
@[simp] theorem State.setCore_cores (s : State) (n : Nat) (x : Core) : (s.setCore n x).cores = s.cores.insert n x := rfl
@[simp] theorem State.setCore_clusters (s : State) (n : Nat) (x : Core) : (s.setCore n x).clusters = s.clusters := rfl
@[simp] theorem State.setCore_engines (s : State) (n : Nat) (x : Core) : (s.setCore n x).engines = s.engines := rfl
@[simp] theorem State.setCore_parked (s : State) (n : Nat) (x : Core) : (s.setCore n x).parked = s.parked := rfl
@[simp] theorem State.setCore_deferrals (s : State) (n : Nat) (x : Core) : (s.setCore n x).deferrals = s.deferrals := rfl
@[simp] theorem State.setCore_spilled (s : State) (n : Nat) (x : Core) : (s.setCore n x).spilled = s.spilled := rfl
@[simp] theorem State.setCore_waits (s : State) (n : Nat) (x : Core) : (s.setCore n x).waits = s.waits := rfl
@[simp] theorem State.setCore_walks (s : State) (n : Nat) (x : Core) : (s.setCore n x).walks = s.walks := rfl
@[simp] theorem State.setCore_beat (s : State) (n : Nat) (x : Core) : (s.setCore n x).beat = s.beat := rfl
@[simp] theorem State.setCore_gldms (s : State) (n : Nat) (x : Core) : (s.setCore n x).gldms = s.gldms := rfl
@[simp] theorem State.setCore_co (s : State) (n : Nat) (x : Core) : (s.setCore n x).co = s.co := rfl
@[simp] theorem State.setCore_ctl (s : State) (n : Nat) (x : Core) : (s.setCore n x).ctl = s.ctl := rfl
@[simp] theorem State.setCore_io (s : State) (n : Nat) (x : Core) : (s.setCore n x).io = s.io := rfl
@[simp] theorem State.setCore_hostOut (s : State) (n : Nat) (x : Core) : (s.setCore n x).hostOut = s.hostOut := rfl
@[simp] theorem State.setCore_freeUse (s : State) (n : Nat) (x : Core) : (s.setCore n x).freeUse = s.freeUse := rfl
@[simp] theorem State.setCore_turns (s : State) (n : Nat) (x : Core) : (s.setCore n x).turns = s.turns := rfl
@[simp] theorem State.setCore_auto (s : State) (n : Nat) (x : Core) : (s.setCore n x).auto = s.auto := rfl
@[simp] theorem State.setCore_actor (s : State) (n : Nat) (x : Core) : (s.setCore n x).actor = s.actor := rfl
@[simp] theorem State.setCore_row (s : State) (n : Nat) (x : Core) : (s.setCore n x).row = s.row := rfl

@[simp] theorem State.setCluster_now (s : State) (k : Nat) (x : Cluster) : (s.setCluster k x).now = s.now := rfl
@[simp] theorem State.setCluster_cycle (s : State) (k : Nat) (x : Cluster) : (s.setCluster k x).cycle = s.cycle := rfl
@[simp] theorem State.setCluster_mem (s : State) (k : Nat) (x : Cluster) : (s.setCluster k x).mem = s.mem := rfl
@[simp] theorem State.setCluster_bad (s : State) (k : Nat) (x : Cluster) : (s.setCluster k x).bad = s.bad := rfl
@[simp] theorem State.setCluster_ctxs (s : State) (k : Nat) (x : Cluster) : (s.setCluster k x).ctxs = s.ctxs := rfl
@[simp] theorem State.setCluster_cores (s : State) (k : Nat) (x : Cluster) : (s.setCluster k x).cores = s.cores := rfl
@[simp] theorem State.setCluster_clusters (s : State) (k : Nat) (x : Cluster) : (s.setCluster k x).clusters = s.clusters.insert k x := rfl
@[simp] theorem State.setCluster_engines (s : State) (k : Nat) (x : Cluster) : (s.setCluster k x).engines = s.engines := rfl
@[simp] theorem State.setCluster_parked (s : State) (k : Nat) (x : Cluster) : (s.setCluster k x).parked = s.parked := rfl
@[simp] theorem State.setCluster_deferrals (s : State) (k : Nat) (x : Cluster) : (s.setCluster k x).deferrals = s.deferrals := rfl
@[simp] theorem State.setCluster_spilled (s : State) (k : Nat) (x : Cluster) : (s.setCluster k x).spilled = s.spilled := rfl
@[simp] theorem State.setCluster_waits (s : State) (k : Nat) (x : Cluster) : (s.setCluster k x).waits = s.waits := rfl
@[simp] theorem State.setCluster_walks (s : State) (k : Nat) (x : Cluster) : (s.setCluster k x).walks = s.walks := rfl
@[simp] theorem State.setCluster_beat (s : State) (k : Nat) (x : Cluster) : (s.setCluster k x).beat = s.beat := rfl
@[simp] theorem State.setCluster_gldms (s : State) (k : Nat) (x : Cluster) : (s.setCluster k x).gldms = s.gldms := rfl
@[simp] theorem State.setCluster_co (s : State) (k : Nat) (x : Cluster) : (s.setCluster k x).co = s.co := rfl
@[simp] theorem State.setCluster_ctl (s : State) (k : Nat) (x : Cluster) : (s.setCluster k x).ctl = s.ctl := rfl
@[simp] theorem State.setCluster_io (s : State) (k : Nat) (x : Cluster) : (s.setCluster k x).io = s.io := rfl
@[simp] theorem State.setCluster_hostOut (s : State) (k : Nat) (x : Cluster) : (s.setCluster k x).hostOut = s.hostOut := rfl
@[simp] theorem State.setCluster_freeUse (s : State) (k : Nat) (x : Cluster) : (s.setCluster k x).freeUse = s.freeUse := rfl
@[simp] theorem State.setCluster_turns (s : State) (k : Nat) (x : Cluster) : (s.setCluster k x).turns = s.turns := rfl
@[simp] theorem State.setCluster_auto (s : State) (k : Nat) (x : Cluster) : (s.setCluster k x).auto = s.auto := rfl
@[simp] theorem State.setCluster_actor (s : State) (k : Nat) (x : Cluster) : (s.setCluster k x).actor = s.actor := rfl
@[simp] theorem State.setCluster_row (s : State) (k : Nat) (x : Cluster) : (s.setCluster k x).row = s.row := rfl

@[simp] theorem State.setMx_now (s : State) (k : Nat) (u : MxUnit) (m : Mx) : (s.setMx k u m).now = s.now := rfl
@[simp] theorem State.setMx_cycle (s : State) (k : Nat) (u : MxUnit) (m : Mx) : (s.setMx k u m).cycle = s.cycle := rfl
@[simp] theorem State.setMx_mem (s : State) (k : Nat) (u : MxUnit) (m : Mx) : (s.setMx k u m).mem = s.mem := rfl
@[simp] theorem State.setMx_bad (s : State) (k : Nat) (u : MxUnit) (m : Mx) : (s.setMx k u m).bad = s.bad := rfl
@[simp] theorem State.setMx_ctxs (s : State) (k : Nat) (u : MxUnit) (m : Mx) : (s.setMx k u m).ctxs = s.ctxs := rfl
@[simp] theorem State.setMx_cores (s : State) (k : Nat) (u : MxUnit) (m : Mx) : (s.setMx k u m).cores = s.cores := rfl
@[simp] theorem State.setMx_clusters (s : State) (k : Nat) (u : MxUnit) (m : Mx) : (s.setMx k u m).clusters = s.clusters.insert k ((s.cluster k).setMx u m) := rfl
@[simp] theorem State.setMx_engines (s : State) (k : Nat) (u : MxUnit) (m : Mx) : (s.setMx k u m).engines = s.engines := rfl
@[simp] theorem State.setMx_parked (s : State) (k : Nat) (u : MxUnit) (m : Mx) : (s.setMx k u m).parked = s.parked := rfl
@[simp] theorem State.setMx_deferrals (s : State) (k : Nat) (u : MxUnit) (m : Mx) : (s.setMx k u m).deferrals = s.deferrals := rfl
@[simp] theorem State.setMx_spilled (s : State) (k : Nat) (u : MxUnit) (m : Mx) : (s.setMx k u m).spilled = s.spilled := rfl
@[simp] theorem State.setMx_waits (s : State) (k : Nat) (u : MxUnit) (m : Mx) : (s.setMx k u m).waits = s.waits := rfl
@[simp] theorem State.setMx_walks (s : State) (k : Nat) (u : MxUnit) (m : Mx) : (s.setMx k u m).walks = s.walks := rfl
@[simp] theorem State.setMx_beat (s : State) (k : Nat) (u : MxUnit) (m : Mx) : (s.setMx k u m).beat = s.beat := rfl
@[simp] theorem State.setMx_gldms (s : State) (k : Nat) (u : MxUnit) (m : Mx) : (s.setMx k u m).gldms = s.gldms := rfl
@[simp] theorem State.setMx_co (s : State) (k : Nat) (u : MxUnit) (m : Mx) : (s.setMx k u m).co = s.co := rfl
@[simp] theorem State.setMx_ctl (s : State) (k : Nat) (u : MxUnit) (m : Mx) : (s.setMx k u m).ctl = s.ctl := rfl
@[simp] theorem State.setMx_io (s : State) (k : Nat) (u : MxUnit) (m : Mx) : (s.setMx k u m).io = s.io := rfl
@[simp] theorem State.setMx_hostOut (s : State) (k : Nat) (u : MxUnit) (m : Mx) : (s.setMx k u m).hostOut = s.hostOut := rfl
@[simp] theorem State.setMx_freeUse (s : State) (k : Nat) (u : MxUnit) (m : Mx) : (s.setMx k u m).freeUse = s.freeUse := rfl
@[simp] theorem State.setMx_turns (s : State) (k : Nat) (u : MxUnit) (m : Mx) : (s.setMx k u m).turns = s.turns := rfl
@[simp] theorem State.setMx_auto (s : State) (k : Nat) (u : MxUnit) (m : Mx) : (s.setMx k u m).auto = s.auto := rfl
@[simp] theorem State.setMx_actor (s : State) (k : Nat) (u : MxUnit) (m : Mx) : (s.setMx k u m).actor = s.actor := rfl
@[simp] theorem State.setMx_row (s : State) (k : Nat) (u : MxUnit) (m : Mx) : (s.setMx k u m).row = s.row := rfl

@[simp] theorem State.setEngine_now (s : State) (n : Nat) (x : Engine) : (s.setEngine n x).now = s.now := rfl
@[simp] theorem State.setEngine_cycle (s : State) (n : Nat) (x : Engine) : (s.setEngine n x).cycle = s.cycle := rfl
@[simp] theorem State.setEngine_mem (s : State) (n : Nat) (x : Engine) : (s.setEngine n x).mem = s.mem := rfl
@[simp] theorem State.setEngine_bad (s : State) (n : Nat) (x : Engine) : (s.setEngine n x).bad = s.bad := rfl
@[simp] theorem State.setEngine_ctxs (s : State) (n : Nat) (x : Engine) : (s.setEngine n x).ctxs = s.ctxs := rfl
@[simp] theorem State.setEngine_cores (s : State) (n : Nat) (x : Engine) : (s.setEngine n x).cores = s.cores := rfl
@[simp] theorem State.setEngine_clusters (s : State) (n : Nat) (x : Engine) : (s.setEngine n x).clusters = s.clusters := rfl
@[simp] theorem State.setEngine_engines (s : State) (n : Nat) (x : Engine) : (s.setEngine n x).engines = s.engines.insert n x := rfl
@[simp] theorem State.setEngine_parked (s : State) (n : Nat) (x : Engine) : (s.setEngine n x).parked = s.parked := rfl
@[simp] theorem State.setEngine_deferrals (s : State) (n : Nat) (x : Engine) : (s.setEngine n x).deferrals = s.deferrals := rfl
@[simp] theorem State.setEngine_spilled (s : State) (n : Nat) (x : Engine) : (s.setEngine n x).spilled = s.spilled := rfl
@[simp] theorem State.setEngine_waits (s : State) (n : Nat) (x : Engine) : (s.setEngine n x).waits = s.waits := rfl
@[simp] theorem State.setEngine_walks (s : State) (n : Nat) (x : Engine) : (s.setEngine n x).walks = s.walks := rfl
@[simp] theorem State.setEngine_beat (s : State) (n : Nat) (x : Engine) : (s.setEngine n x).beat = s.beat := rfl
@[simp] theorem State.setEngine_gldms (s : State) (n : Nat) (x : Engine) : (s.setEngine n x).gldms = s.gldms := rfl
@[simp] theorem State.setEngine_co (s : State) (n : Nat) (x : Engine) : (s.setEngine n x).co = s.co := rfl
@[simp] theorem State.setEngine_ctl (s : State) (n : Nat) (x : Engine) : (s.setEngine n x).ctl = s.ctl := rfl
@[simp] theorem State.setEngine_io (s : State) (n : Nat) (x : Engine) : (s.setEngine n x).io = s.io := rfl
@[simp] theorem State.setEngine_hostOut (s : State) (n : Nat) (x : Engine) : (s.setEngine n x).hostOut = s.hostOut := rfl
@[simp] theorem State.setEngine_freeUse (s : State) (n : Nat) (x : Engine) : (s.setEngine n x).freeUse = s.freeUse := rfl
@[simp] theorem State.setEngine_turns (s : State) (n : Nat) (x : Engine) : (s.setEngine n x).turns = s.turns := rfl
@[simp] theorem State.setEngine_auto (s : State) (n : Nat) (x : Engine) : (s.setEngine n x).auto = s.auto := rfl
@[simp] theorem State.setEngine_actor (s : State) (n : Nat) (x : Engine) : (s.setEngine n x).actor = s.actor := rfl
@[simp] theorem State.setEngine_row (s : State) (n : Nat) (x : Engine) : (s.setEngine n x).row = s.row := rfl

@[simp] theorem State.setTag_now (s : State) (n t : Nat) (x : Tag) : (s.setTag n t x).now = s.now := rfl
@[simp] theorem State.setTag_cycle (s : State) (n t : Nat) (x : Tag) : (s.setTag n t x).cycle = s.cycle := rfl
@[simp] theorem State.setTag_mem (s : State) (n t : Nat) (x : Tag) : (s.setTag n t x).mem = s.mem := rfl
@[simp] theorem State.setTag_bad (s : State) (n t : Nat) (x : Tag) : (s.setTag n t x).bad = s.bad := rfl
@[simp] theorem State.setTag_ctxs (s : State) (n t : Nat) (x : Tag) : (s.setTag n t x).ctxs = s.ctxs := rfl
@[simp] theorem State.setTag_cores (s : State) (n t : Nat) (x : Tag) : (s.setTag n t x).cores = s.cores.insert n { s.core n with tags := (s.core n).tags.put t x Tag.zero } := rfl
@[simp] theorem State.setTag_clusters (s : State) (n t : Nat) (x : Tag) : (s.setTag n t x).clusters = s.clusters := rfl
@[simp] theorem State.setTag_engines (s : State) (n t : Nat) (x : Tag) : (s.setTag n t x).engines = s.engines := rfl
@[simp] theorem State.setTag_parked (s : State) (n t : Nat) (x : Tag) : (s.setTag n t x).parked = s.parked := rfl
@[simp] theorem State.setTag_deferrals (s : State) (n t : Nat) (x : Tag) : (s.setTag n t x).deferrals = s.deferrals := rfl
@[simp] theorem State.setTag_spilled (s : State) (n t : Nat) (x : Tag) : (s.setTag n t x).spilled = s.spilled := rfl
@[simp] theorem State.setTag_waits (s : State) (n t : Nat) (x : Tag) : (s.setTag n t x).waits = s.waits := rfl
@[simp] theorem State.setTag_walks (s : State) (n t : Nat) (x : Tag) : (s.setTag n t x).walks = s.walks := rfl
@[simp] theorem State.setTag_beat (s : State) (n t : Nat) (x : Tag) : (s.setTag n t x).beat = s.beat := rfl
@[simp] theorem State.setTag_gldms (s : State) (n t : Nat) (x : Tag) : (s.setTag n t x).gldms = s.gldms := rfl
@[simp] theorem State.setTag_co (s : State) (n t : Nat) (x : Tag) : (s.setTag n t x).co = s.co := rfl
@[simp] theorem State.setTag_ctl (s : State) (n t : Nat) (x : Tag) : (s.setTag n t x).ctl = s.ctl := rfl
@[simp] theorem State.setTag_io (s : State) (n t : Nat) (x : Tag) : (s.setTag n t x).io = s.io := rfl
@[simp] theorem State.setTag_hostOut (s : State) (n t : Nat) (x : Tag) : (s.setTag n t x).hostOut = s.hostOut := rfl
@[simp] theorem State.setTag_freeUse (s : State) (n t : Nat) (x : Tag) : (s.setTag n t x).freeUse = s.freeUse := rfl
@[simp] theorem State.setTag_turns (s : State) (n t : Nat) (x : Tag) : (s.setTag n t x).turns = s.turns := rfl
@[simp] theorem State.setTag_auto (s : State) (n t : Nat) (x : Tag) : (s.setTag n t x).auto = s.auto := rfl
@[simp] theorem State.setTag_actor (s : State) (n t : Nat) (x : Tag) : (s.setTag n t x).actor = s.actor := rfl
@[simp] theorem State.setTag_row (s : State) (n t : Nat) (x : Tag) : (s.setTag n t x).row = s.row := rfl

@[simp] theorem State.setRegion_now (s : State) (r : Region) : (s.setRegion r).now = s.now := rfl
@[simp] theorem State.setRegion_cycle (s : State) (r : Region) : (s.setRegion r).cycle = s.cycle := rfl
@[simp] theorem State.setRegion_mem (s : State) (r : Region) : (s.setRegion r).mem = s.mem := rfl
@[simp] theorem State.setRegion_bad (s : State) (r : Region) : (s.setRegion r).bad = s.bad := rfl
@[simp] theorem State.setRegion_ctxs (s : State) (r : Region) : (s.setRegion r).ctxs = s.ctxs := rfl
@[simp] theorem State.setRegion_cores (s : State) (r : Region) : (s.setRegion r).cores = s.cores := rfl
@[simp] theorem State.setRegion_clusters (s : State) (r : Region) : (s.setRegion r).clusters = s.clusters := rfl
@[simp] theorem State.setRegion_engines (s : State) (r : Region) : (s.setRegion r).engines = s.engines := rfl
@[simp] theorem State.setRegion_parked (s : State) (r : Region) : (s.setRegion r).parked = s.parked := rfl
@[simp] theorem State.setRegion_deferrals (s : State) (r : Region) : (s.setRegion r).deferrals = s.deferrals := rfl
@[simp] theorem State.setRegion_spilled (s : State) (r : Region) : (s.setRegion r).spilled = s.spilled := rfl
@[simp] theorem State.setRegion_waits (s : State) (r : Region) : (s.setRegion r).waits = s.waits := rfl
@[simp] theorem State.setRegion_walks (s : State) (r : Region) : (s.setRegion r).walks = s.walks := rfl
@[simp] theorem State.setRegion_beat (s : State) (r : Region) : (s.setRegion r).beat = s.beat := rfl
@[simp] theorem State.setRegion_gldms (s : State) (r : Region) : (s.setRegion r).gldms = s.gldms := rfl
@[simp] theorem State.setRegion_co (s : State) (r : Region) : (s.setRegion r).co = { s.co with regions := s.co.regions.insert r.id r } := rfl
@[simp] theorem State.setRegion_ctl (s : State) (r : Region) : (s.setRegion r).ctl = s.ctl := rfl
@[simp] theorem State.setRegion_io (s : State) (r : Region) : (s.setRegion r).io = s.io := rfl
@[simp] theorem State.setRegion_hostOut (s : State) (r : Region) : (s.setRegion r).hostOut = s.hostOut := rfl
@[simp] theorem State.setRegion_freeUse (s : State) (r : Region) : (s.setRegion r).freeUse = s.freeUse := rfl
@[simp] theorem State.setRegion_turns (s : State) (r : Region) : (s.setRegion r).turns = s.turns := rfl
@[simp] theorem State.setRegion_auto (s : State) (r : Region) : (s.setRegion r).auto = s.auto := rfl
@[simp] theorem State.setRegion_actor (s : State) (r : Region) : (s.setRegion r).actor = s.actor := rfl
@[simp] theorem State.setRegion_row (s : State) (r : Region) : (s.setRegion r).row = s.row := rfl

@[simp] theorem State.setSpan_now (s : State) (p : Span) : (s.setSpan p).now = s.now := rfl
@[simp] theorem State.setSpan_cycle (s : State) (p : Span) : (s.setSpan p).cycle = s.cycle := rfl
@[simp] theorem State.setSpan_mem (s : State) (p : Span) : (s.setSpan p).mem = s.mem := rfl
@[simp] theorem State.setSpan_bad (s : State) (p : Span) : (s.setSpan p).bad = s.bad := rfl
@[simp] theorem State.setSpan_ctxs (s : State) (p : Span) : (s.setSpan p).ctxs = s.ctxs := rfl
@[simp] theorem State.setSpan_cores (s : State) (p : Span) : (s.setSpan p).cores = s.cores := rfl
@[simp] theorem State.setSpan_clusters (s : State) (p : Span) : (s.setSpan p).clusters = s.clusters := rfl
@[simp] theorem State.setSpan_engines (s : State) (p : Span) : (s.setSpan p).engines = s.engines := rfl
@[simp] theorem State.setSpan_parked (s : State) (p : Span) : (s.setSpan p).parked = s.parked := rfl
@[simp] theorem State.setSpan_deferrals (s : State) (p : Span) : (s.setSpan p).deferrals = s.deferrals := rfl
@[simp] theorem State.setSpan_spilled (s : State) (p : Span) : (s.setSpan p).spilled = s.spilled := rfl
@[simp] theorem State.setSpan_waits (s : State) (p : Span) : (s.setSpan p).waits = s.waits := rfl
@[simp] theorem State.setSpan_walks (s : State) (p : Span) : (s.setSpan p).walks = s.walks := rfl
@[simp] theorem State.setSpan_beat (s : State) (p : Span) : (s.setSpan p).beat = s.beat := rfl
@[simp] theorem State.setSpan_gldms (s : State) (p : Span) : (s.setSpan p).gldms = s.gldms := rfl
@[simp] theorem State.setSpan_co (s : State) (p : Span) : (s.setSpan p).co = { s.co with spans := s.co.spans.map (fun q => if q.serial == p.serial then p else q) } := rfl
@[simp] theorem State.setSpan_ctl (s : State) (p : Span) : (s.setSpan p).ctl = s.ctl := rfl
@[simp] theorem State.setSpan_io (s : State) (p : Span) : (s.setSpan p).io = s.io := rfl
@[simp] theorem State.setSpan_hostOut (s : State) (p : Span) : (s.setSpan p).hostOut = s.hostOut := rfl
@[simp] theorem State.setSpan_freeUse (s : State) (p : Span) : (s.setSpan p).freeUse = s.freeUse := rfl
@[simp] theorem State.setSpan_turns (s : State) (p : Span) : (s.setSpan p).turns = s.turns := rfl
@[simp] theorem State.setSpan_auto (s : State) (p : Span) : (s.setSpan p).auto = s.auto := rfl
@[simp] theorem State.setSpan_actor (s : State) (p : Span) : (s.setSpan p).actor = s.actor := rfl
@[simp] theorem State.setSpan_row (s : State) (p : Span) : (s.setSpan p).row = s.row := rfl

@[simp] theorem State.poke_now (s : State) (a : Nat) (bs : List Byte) : (s.poke a bs).now = s.now := rfl
@[simp] theorem State.poke_cycle (s : State) (a : Nat) (bs : List Byte) : (s.poke a bs).cycle = s.cycle := rfl
@[simp] theorem State.poke_mem (s : State) (a : Nat) (bs : List Byte) : (s.poke a bs).mem = memWrite s.mem a bs := rfl
@[simp] theorem State.poke_bad (s : State) (a : Nat) (bs : List Byte) : (s.poke a bs).bad = badAfter s.bad a bs.length := rfl
@[simp] theorem State.poke_ctxs (s : State) (a : Nat) (bs : List Byte) : (s.poke a bs).ctxs = s.ctxs := rfl
@[simp] theorem State.poke_cores (s : State) (a : Nat) (bs : List Byte) : (s.poke a bs).cores = s.cores := rfl
@[simp] theorem State.poke_clusters (s : State) (a : Nat) (bs : List Byte) : (s.poke a bs).clusters = s.clusters := rfl
@[simp] theorem State.poke_engines (s : State) (a : Nat) (bs : List Byte) : (s.poke a bs).engines = s.engines := rfl
@[simp] theorem State.poke_parked (s : State) (a : Nat) (bs : List Byte) : (s.poke a bs).parked = s.parked := rfl
@[simp] theorem State.poke_deferrals (s : State) (a : Nat) (bs : List Byte) : (s.poke a bs).deferrals = s.deferrals := rfl
@[simp] theorem State.poke_spilled (s : State) (a : Nat) (bs : List Byte) : (s.poke a bs).spilled = s.spilled := rfl
@[simp] theorem State.poke_waits (s : State) (a : Nat) (bs : List Byte) : (s.poke a bs).waits = s.waits := rfl
@[simp] theorem State.poke_walks (s : State) (a : Nat) (bs : List Byte) : (s.poke a bs).walks = s.walks := rfl
@[simp] theorem State.poke_beat (s : State) (a : Nat) (bs : List Byte) : (s.poke a bs).beat = s.beat := rfl
@[simp] theorem State.poke_gldms (s : State) (a : Nat) (bs : List Byte) : (s.poke a bs).gldms = s.gldms := rfl
@[simp] theorem State.poke_co (s : State) (a : Nat) (bs : List Byte) : (s.poke a bs).co = s.co := rfl
@[simp] theorem State.poke_ctl (s : State) (a : Nat) (bs : List Byte) : (s.poke a bs).ctl = s.ctl := rfl
@[simp] theorem State.poke_io (s : State) (a : Nat) (bs : List Byte) : (s.poke a bs).io = s.io := rfl
@[simp] theorem State.poke_hostOut (s : State) (a : Nat) (bs : List Byte) : (s.poke a bs).hostOut = s.hostOut := rfl
@[simp] theorem State.poke_freeUse (s : State) (a : Nat) (bs : List Byte) : (s.poke a bs).freeUse = s.freeUse := rfl
@[simp] theorem State.poke_turns (s : State) (a : Nat) (bs : List Byte) : (s.poke a bs).turns = s.turns := rfl
@[simp] theorem State.poke_auto (s : State) (a : Nat) (bs : List Byte) : (s.poke a bs).auto = s.auto := rfl
@[simp] theorem State.poke_actor (s : State) (a : Nat) (bs : List Byte) : (s.poke a bs).actor = s.actor := rfl
@[simp] theorem State.poke_row (s : State) (a : Nat) (bs : List Byte) : (s.poke a bs).row = s.row := rfl

@[simp] theorem State.poke64_now (s : State) (a : Nat) (v : Word) : (s.poke64 a v).now = s.now := rfl
@[simp] theorem State.poke64_cycle (s : State) (a : Nat) (v : Word) : (s.poke64 a v).cycle = s.cycle := rfl
@[simp] theorem State.poke64_mem (s : State) (a : Nat) (v : Word) : (s.poke64 a v).mem = memWrite s.mem a (leBytes 8 v.toNat) := rfl
@[simp] theorem State.poke64_bad (s : State) (a : Nat) (v : Word) : (s.poke64 a v).bad = badAfter s.bad a 8 := by simp [State.poke64, State.poke]
@[simp] theorem State.poke64_ctxs (s : State) (a : Nat) (v : Word) : (s.poke64 a v).ctxs = s.ctxs := rfl
@[simp] theorem State.poke64_cores (s : State) (a : Nat) (v : Word) : (s.poke64 a v).cores = s.cores := rfl
@[simp] theorem State.poke64_clusters (s : State) (a : Nat) (v : Word) : (s.poke64 a v).clusters = s.clusters := rfl
@[simp] theorem State.poke64_engines (s : State) (a : Nat) (v : Word) : (s.poke64 a v).engines = s.engines := rfl
@[simp] theorem State.poke64_parked (s : State) (a : Nat) (v : Word) : (s.poke64 a v).parked = s.parked := rfl
@[simp] theorem State.poke64_deferrals (s : State) (a : Nat) (v : Word) : (s.poke64 a v).deferrals = s.deferrals := rfl
@[simp] theorem State.poke64_spilled (s : State) (a : Nat) (v : Word) : (s.poke64 a v).spilled = s.spilled := rfl
@[simp] theorem State.poke64_waits (s : State) (a : Nat) (v : Word) : (s.poke64 a v).waits = s.waits := rfl
@[simp] theorem State.poke64_walks (s : State) (a : Nat) (v : Word) : (s.poke64 a v).walks = s.walks := rfl
@[simp] theorem State.poke64_beat (s : State) (a : Nat) (v : Word) : (s.poke64 a v).beat = s.beat := rfl
@[simp] theorem State.poke64_gldms (s : State) (a : Nat) (v : Word) : (s.poke64 a v).gldms = s.gldms := rfl
@[simp] theorem State.poke64_co (s : State) (a : Nat) (v : Word) : (s.poke64 a v).co = s.co := rfl
@[simp] theorem State.poke64_ctl (s : State) (a : Nat) (v : Word) : (s.poke64 a v).ctl = s.ctl := rfl
@[simp] theorem State.poke64_io (s : State) (a : Nat) (v : Word) : (s.poke64 a v).io = s.io := rfl
@[simp] theorem State.poke64_hostOut (s : State) (a : Nat) (v : Word) : (s.poke64 a v).hostOut = s.hostOut := rfl
@[simp] theorem State.poke64_freeUse (s : State) (a : Nat) (v : Word) : (s.poke64 a v).freeUse = s.freeUse := rfl
@[simp] theorem State.poke64_turns (s : State) (a : Nat) (v : Word) : (s.poke64 a v).turns = s.turns := rfl
@[simp] theorem State.poke64_auto (s : State) (a : Nat) (v : Word) : (s.poke64 a v).auto = s.auto := rfl
@[simp] theorem State.poke64_actor (s : State) (a : Nat) (v : Word) : (s.poke64 a v).actor = s.actor := rfl
@[simp] theorem State.poke64_row (s : State) (a : Nat) (v : Word) : (s.poke64 a v).row = s.row := rfl

@[simp] theorem State.undefer_now (s : State) (c : Nat) : (s.undefer c).now = s.now := rfl
@[simp] theorem State.undefer_cycle (s : State) (c : Nat) : (s.undefer c).cycle = s.cycle := rfl
@[simp] theorem State.undefer_mem (s : State) (c : Nat) : (s.undefer c).mem = s.mem := rfl
@[simp] theorem State.undefer_bad (s : State) (c : Nat) : (s.undefer c).bad = s.bad := rfl
@[simp] theorem State.undefer_ctxs (s : State) (c : Nat) : (s.undefer c).ctxs = s.ctxs := rfl
@[simp] theorem State.undefer_cores (s : State) (c : Nat) : (s.undefer c).cores = s.cores := rfl
@[simp] theorem State.undefer_clusters (s : State) (c : Nat) : (s.undefer c).clusters = s.clusters := rfl
@[simp] theorem State.undefer_engines (s : State) (c : Nat) : (s.undefer c).engines = s.engines := rfl
@[simp] theorem State.undefer_parked (s : State) (c : Nat) : (s.undefer c).parked = s.parked := rfl
@[simp] theorem State.undefer_deferrals (s : State) (c : Nat) : (s.undefer c).deferrals = s.deferrals.filter (fun q => q.ctx != c) := rfl
@[simp] theorem State.undefer_spilled (s : State) (c : Nat) : (s.undefer c).spilled = s.spilled := rfl
@[simp] theorem State.undefer_waits (s : State) (c : Nat) : (s.undefer c).waits = s.waits := rfl
@[simp] theorem State.undefer_walks (s : State) (c : Nat) : (s.undefer c).walks = s.walks := rfl
@[simp] theorem State.undefer_beat (s : State) (c : Nat) : (s.undefer c).beat = s.beat := rfl
@[simp] theorem State.undefer_gldms (s : State) (c : Nat) : (s.undefer c).gldms = s.gldms := rfl
@[simp] theorem State.undefer_co (s : State) (c : Nat) : (s.undefer c).co = { s.co with deferred0 := s.co.deferred0.filter (fun q => q.ctx != c) } := rfl
@[simp] theorem State.undefer_ctl (s : State) (c : Nat) : (s.undefer c).ctl = s.ctl := rfl
@[simp] theorem State.undefer_io (s : State) (c : Nat) : (s.undefer c).io = s.io := rfl
@[simp] theorem State.undefer_hostOut (s : State) (c : Nat) : (s.undefer c).hostOut = s.hostOut := rfl
@[simp] theorem State.undefer_freeUse (s : State) (c : Nat) : (s.undefer c).freeUse = s.freeUse := rfl
@[simp] theorem State.undefer_turns (s : State) (c : Nat) : (s.undefer c).turns = s.turns := rfl
@[simp] theorem State.undefer_auto (s : State) (c : Nat) : (s.undefer c).auto = s.auto := rfl
@[simp] theorem State.undefer_actor (s : State) (c : Nat) : (s.undefer c).actor = s.actor := rfl
@[simp] theorem State.undefer_row (s : State) (c : Nat) : (s.undefer c).row = s.row := rfl

@[simp] theorem State.setReg_now (s : State) (x : Ctx) (r : Reg) (v : Word) : (s.setReg x r v).now = s.now := by
  unfold State.setReg
  (repeat' split) <;> rfl
@[simp] theorem State.setReg_cycle (s : State) (x : Ctx) (r : Reg) (v : Word) : (s.setReg x r v).cycle = s.cycle := by
  unfold State.setReg
  (repeat' split) <;> rfl
@[simp] theorem State.setReg_ctxs (s : State) (x : Ctx) (r : Reg) (v : Word) : (s.setReg x r v).ctxs = s.ctxs := by
  unfold State.setReg
  (repeat' split) <;> rfl
@[simp] theorem State.setReg_cores (s : State) (x : Ctx) (r : Reg) (v : Word) : (s.setReg x r v).cores = s.cores := by
  unfold State.setReg
  (repeat' split) <;> rfl
@[simp] theorem State.setReg_clusters (s : State) (x : Ctx) (r : Reg) (v : Word) : (s.setReg x r v).clusters = s.clusters := by
  unfold State.setReg
  (repeat' split) <;> rfl
@[simp] theorem State.setReg_engines (s : State) (x : Ctx) (r : Reg) (v : Word) : (s.setReg x r v).engines = s.engines := by
  unfold State.setReg
  (repeat' split) <;> rfl
@[simp] theorem State.setReg_parked (s : State) (x : Ctx) (r : Reg) (v : Word) : (s.setReg x r v).parked = s.parked := by
  unfold State.setReg
  (repeat' split) <;> rfl
@[simp] theorem State.setReg_deferrals (s : State) (x : Ctx) (r : Reg) (v : Word) : (s.setReg x r v).deferrals = s.deferrals := by
  unfold State.setReg
  (repeat' split) <;> rfl
@[simp] theorem State.setReg_spilled (s : State) (x : Ctx) (r : Reg) (v : Word) : (s.setReg x r v).spilled = s.spilled := by
  unfold State.setReg
  (repeat' split) <;> rfl
@[simp] theorem State.setReg_waits (s : State) (x : Ctx) (r : Reg) (v : Word) : (s.setReg x r v).waits = s.waits := by
  unfold State.setReg
  (repeat' split) <;> rfl
@[simp] theorem State.setReg_walks (s : State) (x : Ctx) (r : Reg) (v : Word) : (s.setReg x r v).walks = s.walks := by
  unfold State.setReg
  (repeat' split) <;> rfl
@[simp] theorem State.setReg_beat (s : State) (x : Ctx) (r : Reg) (v : Word) : (s.setReg x r v).beat = s.beat := by
  unfold State.setReg
  (repeat' split) <;> rfl
@[simp] theorem State.setReg_gldms (s : State) (x : Ctx) (r : Reg) (v : Word) : (s.setReg x r v).gldms = s.gldms := by
  unfold State.setReg
  (repeat' split) <;> rfl
@[simp] theorem State.setReg_co (s : State) (x : Ctx) (r : Reg) (v : Word) : (s.setReg x r v).co = s.co := by
  unfold State.setReg
  (repeat' split) <;> rfl
@[simp] theorem State.setReg_ctl (s : State) (x : Ctx) (r : Reg) (v : Word) : (s.setReg x r v).ctl = s.ctl := by
  unfold State.setReg
  (repeat' split) <;> rfl
@[simp] theorem State.setReg_io (s : State) (x : Ctx) (r : Reg) (v : Word) : (s.setReg x r v).io = s.io := by
  unfold State.setReg
  (repeat' split) <;> rfl
@[simp] theorem State.setReg_hostOut (s : State) (x : Ctx) (r : Reg) (v : Word) : (s.setReg x r v).hostOut = s.hostOut := by
  unfold State.setReg
  (repeat' split) <;> rfl
@[simp] theorem State.setReg_freeUse (s : State) (x : Ctx) (r : Reg) (v : Word) : (s.setReg x r v).freeUse = s.freeUse := by
  unfold State.setReg
  (repeat' split) <;> rfl
@[simp] theorem State.setReg_turns (s : State) (x : Ctx) (r : Reg) (v : Word) : (s.setReg x r v).turns = s.turns := by
  unfold State.setReg
  (repeat' split) <;> rfl
@[simp] theorem State.setReg_auto (s : State) (x : Ctx) (r : Reg) (v : Word) : (s.setReg x r v).auto = s.auto := by
  unfold State.setReg
  (repeat' split) <;> rfl
@[simp] theorem State.setReg_actor (s : State) (x : Ctx) (r : Reg) (v : Word) : (s.setReg x r v).actor = s.actor := by
  unfold State.setReg
  (repeat' split) <;> rfl
@[simp] theorem State.setReg_row (s : State) (x : Ctx) (r : Reg) (v : Word) : (s.setReg x r v).row = s.row := by
  unfold State.setReg
  (repeat' split) <;> rfl

@[simp] theorem State.modCtx_now (s : State) (c : Nat) (f : Ctx → Ctx) : (s.modCtx c f).now = s.now := by
  unfold State.modCtx
  (repeat' split) <;> rfl
@[simp] theorem State.modCtx_cycle (s : State) (c : Nat) (f : Ctx → Ctx) : (s.modCtx c f).cycle = s.cycle := by
  unfold State.modCtx
  (repeat' split) <;> rfl
@[simp] theorem State.modCtx_mem (s : State) (c : Nat) (f : Ctx → Ctx) : (s.modCtx c f).mem = s.mem := by
  unfold State.modCtx
  (repeat' split) <;> rfl
@[simp] theorem State.modCtx_bad (s : State) (c : Nat) (f : Ctx → Ctx) : (s.modCtx c f).bad = s.bad := by
  unfold State.modCtx
  (repeat' split) <;> rfl
@[simp] theorem State.modCtx_cores (s : State) (c : Nat) (f : Ctx → Ctx) : (s.modCtx c f).cores = s.cores := by
  unfold State.modCtx
  (repeat' split) <;> rfl
@[simp] theorem State.modCtx_clusters (s : State) (c : Nat) (f : Ctx → Ctx) : (s.modCtx c f).clusters = s.clusters := by
  unfold State.modCtx
  (repeat' split) <;> rfl
@[simp] theorem State.modCtx_engines (s : State) (c : Nat) (f : Ctx → Ctx) : (s.modCtx c f).engines = s.engines := by
  unfold State.modCtx
  (repeat' split) <;> rfl
@[simp] theorem State.modCtx_parked (s : State) (c : Nat) (f : Ctx → Ctx) : (s.modCtx c f).parked = s.parked := by
  unfold State.modCtx
  (repeat' split) <;> rfl
@[simp] theorem State.modCtx_deferrals (s : State) (c : Nat) (f : Ctx → Ctx) : (s.modCtx c f).deferrals = s.deferrals := by
  unfold State.modCtx
  (repeat' split) <;> rfl
@[simp] theorem State.modCtx_spilled (s : State) (c : Nat) (f : Ctx → Ctx) : (s.modCtx c f).spilled = s.spilled := by
  unfold State.modCtx
  (repeat' split) <;> rfl
@[simp] theorem State.modCtx_waits (s : State) (c : Nat) (f : Ctx → Ctx) : (s.modCtx c f).waits = s.waits := by
  unfold State.modCtx
  (repeat' split) <;> rfl
@[simp] theorem State.modCtx_walks (s : State) (c : Nat) (f : Ctx → Ctx) : (s.modCtx c f).walks = s.walks := by
  unfold State.modCtx
  (repeat' split) <;> rfl
@[simp] theorem State.modCtx_beat (s : State) (c : Nat) (f : Ctx → Ctx) : (s.modCtx c f).beat = s.beat := by
  unfold State.modCtx
  (repeat' split) <;> rfl
@[simp] theorem State.modCtx_gldms (s : State) (c : Nat) (f : Ctx → Ctx) : (s.modCtx c f).gldms = s.gldms := by
  unfold State.modCtx
  (repeat' split) <;> rfl
@[simp] theorem State.modCtx_co (s : State) (c : Nat) (f : Ctx → Ctx) : (s.modCtx c f).co = s.co := by
  unfold State.modCtx
  (repeat' split) <;> rfl
@[simp] theorem State.modCtx_ctl (s : State) (c : Nat) (f : Ctx → Ctx) : (s.modCtx c f).ctl = s.ctl := by
  unfold State.modCtx
  (repeat' split) <;> rfl
@[simp] theorem State.modCtx_io (s : State) (c : Nat) (f : Ctx → Ctx) : (s.modCtx c f).io = s.io := by
  unfold State.modCtx
  (repeat' split) <;> rfl
@[simp] theorem State.modCtx_hostOut (s : State) (c : Nat) (f : Ctx → Ctx) : (s.modCtx c f).hostOut = s.hostOut := by
  unfold State.modCtx
  (repeat' split) <;> rfl
@[simp] theorem State.modCtx_freeUse (s : State) (c : Nat) (f : Ctx → Ctx) : (s.modCtx c f).freeUse = s.freeUse := by
  unfold State.modCtx
  (repeat' split) <;> rfl
@[simp] theorem State.modCtx_turns (s : State) (c : Nat) (f : Ctx → Ctx) : (s.modCtx c f).turns = s.turns := by
  unfold State.modCtx
  (repeat' split) <;> rfl
@[simp] theorem State.modCtx_auto (s : State) (c : Nat) (f : Ctx → Ctx) : (s.modCtx c f).auto = s.auto := by
  unfold State.modCtx
  (repeat' split) <;> rfl
@[simp] theorem State.modCtx_actor (s : State) (c : Nat) (f : Ctx → Ctx) : (s.modCtx c f).actor = s.actor := by
  unfold State.modCtx
  (repeat' split) <;> rfl
@[simp] theorem State.modCtx_row (s : State) (c : Nat) (f : Ctx → Ctx) : (s.modCtx c f).row = s.row := by
  unfold State.modCtx
  (repeat' split) <;> rfl

@[simp] theorem State.raise_now (s : State) (c n : Nat) : (s.raise c n).now = s.now := by
  unfold State.raise State.modCtx
  (repeat' split) <;> rfl
@[simp] theorem State.raise_cycle (s : State) (c n : Nat) : (s.raise c n).cycle = s.cycle := by
  unfold State.raise State.modCtx
  (repeat' split) <;> rfl
@[simp] theorem State.raise_mem (s : State) (c n : Nat) : (s.raise c n).mem = s.mem := by
  unfold State.raise State.modCtx
  (repeat' split) <;> rfl
@[simp] theorem State.raise_bad (s : State) (c n : Nat) : (s.raise c n).bad = s.bad := by
  unfold State.raise State.modCtx
  (repeat' split) <;> rfl
@[simp] theorem State.raise_cores (s : State) (c n : Nat) : (s.raise c n).cores = s.cores := by
  unfold State.raise State.modCtx
  (repeat' split) <;> rfl
@[simp] theorem State.raise_clusters (s : State) (c n : Nat) : (s.raise c n).clusters = s.clusters := by
  unfold State.raise State.modCtx
  (repeat' split) <;> rfl
@[simp] theorem State.raise_engines (s : State) (c n : Nat) : (s.raise c n).engines = s.engines := by
  unfold State.raise State.modCtx
  (repeat' split) <;> rfl
@[simp] theorem State.raise_parked (s : State) (c n : Nat) : (s.raise c n).parked = s.parked := by
  unfold State.raise State.modCtx
  (repeat' split) <;> rfl
@[simp] theorem State.raise_deferrals (s : State) (c n : Nat) : (s.raise c n).deferrals = s.deferrals := by
  unfold State.raise State.modCtx
  (repeat' split) <;> rfl
@[simp] theorem State.raise_spilled (s : State) (c n : Nat) : (s.raise c n).spilled = s.spilled := by
  unfold State.raise State.modCtx
  (repeat' split) <;> rfl
@[simp] theorem State.raise_waits (s : State) (c n : Nat) : (s.raise c n).waits = s.waits := by
  unfold State.raise State.modCtx
  (repeat' split) <;> rfl
@[simp] theorem State.raise_walks (s : State) (c n : Nat) : (s.raise c n).walks = s.walks := by
  unfold State.raise State.modCtx
  (repeat' split) <;> rfl
@[simp] theorem State.raise_beat (s : State) (c n : Nat) : (s.raise c n).beat = s.beat := by
  unfold State.raise State.modCtx
  (repeat' split) <;> rfl
@[simp] theorem State.raise_gldms (s : State) (c n : Nat) : (s.raise c n).gldms = s.gldms := by
  unfold State.raise State.modCtx
  (repeat' split) <;> rfl
@[simp] theorem State.raise_co (s : State) (c n : Nat) : (s.raise c n).co = s.co := by
  unfold State.raise State.modCtx
  (repeat' split) <;> rfl
@[simp] theorem State.raise_ctl (s : State) (c n : Nat) : (s.raise c n).ctl = s.ctl := by
  unfold State.raise State.modCtx
  (repeat' split) <;> rfl
@[simp] theorem State.raise_io (s : State) (c n : Nat) : (s.raise c n).io = s.io := by
  unfold State.raise State.modCtx
  (repeat' split) <;> rfl
@[simp] theorem State.raise_hostOut (s : State) (c n : Nat) : (s.raise c n).hostOut = s.hostOut := by
  unfold State.raise State.modCtx
  (repeat' split) <;> rfl
@[simp] theorem State.raise_freeUse (s : State) (c n : Nat) : (s.raise c n).freeUse = s.freeUse := by
  unfold State.raise State.modCtx
  (repeat' split) <;> rfl
@[simp] theorem State.raise_turns (s : State) (c n : Nat) : (s.raise c n).turns = s.turns := by
  unfold State.raise State.modCtx
  (repeat' split) <;> rfl
@[simp] theorem State.raise_auto (s : State) (c n : Nat) : (s.raise c n).auto = s.auto := by
  unfold State.raise State.modCtx
  (repeat' split) <;> rfl
@[simp] theorem State.raise_actor (s : State) (c n : Nat) : (s.raise c n).actor = s.actor := by
  unfold State.raise State.modCtx
  (repeat' split) <;> rfl
@[simp] theorem State.raise_row (s : State) (c n : Nat) : (s.raise c n).row = s.row := by
  unfold State.raise State.modCtx
  (repeat' split) <;> rfl

@[simp] theorem State.writeReg_now (s : State) (c : Nat) (r : Reg) (v : Word) : (s.writeReg c r v).now = s.now := by
  unfold State.writeReg State.setReg
  (repeat' split) <;> rfl
@[simp] theorem State.writeReg_cycle (s : State) (c : Nat) (r : Reg) (v : Word) : (s.writeReg c r v).cycle = s.cycle := by
  unfold State.writeReg State.setReg
  (repeat' split) <;> rfl
@[simp] theorem State.writeReg_ctxs (s : State) (c : Nat) (r : Reg) (v : Word) : (s.writeReg c r v).ctxs = s.ctxs := by
  unfold State.writeReg State.setReg
  (repeat' split) <;> rfl
@[simp] theorem State.writeReg_cores (s : State) (c : Nat) (r : Reg) (v : Word) : (s.writeReg c r v).cores = s.cores := by
  unfold State.writeReg State.setReg
  (repeat' split) <;> rfl
@[simp] theorem State.writeReg_clusters (s : State) (c : Nat) (r : Reg) (v : Word) : (s.writeReg c r v).clusters = s.clusters := by
  unfold State.writeReg State.setReg
  (repeat' split) <;> rfl
@[simp] theorem State.writeReg_engines (s : State) (c : Nat) (r : Reg) (v : Word) : (s.writeReg c r v).engines = s.engines := by
  unfold State.writeReg State.setReg
  (repeat' split) <;> rfl
@[simp] theorem State.writeReg_parked (s : State) (c : Nat) (r : Reg) (v : Word) : (s.writeReg c r v).parked = s.parked := by
  unfold State.writeReg State.setReg
  (repeat' split) <;> rfl
@[simp] theorem State.writeReg_deferrals (s : State) (c : Nat) (r : Reg) (v : Word) : (s.writeReg c r v).deferrals = s.deferrals := by
  unfold State.writeReg State.setReg
  (repeat' split) <;> rfl
@[simp] theorem State.writeReg_spilled (s : State) (c : Nat) (r : Reg) (v : Word) : (s.writeReg c r v).spilled = s.spilled := by
  unfold State.writeReg State.setReg
  (repeat' split) <;> rfl
@[simp] theorem State.writeReg_waits (s : State) (c : Nat) (r : Reg) (v : Word) : (s.writeReg c r v).waits = s.waits := by
  unfold State.writeReg State.setReg
  (repeat' split) <;> rfl
@[simp] theorem State.writeReg_walks (s : State) (c : Nat) (r : Reg) (v : Word) : (s.writeReg c r v).walks = s.walks := by
  unfold State.writeReg State.setReg
  (repeat' split) <;> rfl
@[simp] theorem State.writeReg_beat (s : State) (c : Nat) (r : Reg) (v : Word) : (s.writeReg c r v).beat = s.beat := by
  unfold State.writeReg State.setReg
  (repeat' split) <;> rfl
@[simp] theorem State.writeReg_gldms (s : State) (c : Nat) (r : Reg) (v : Word) : (s.writeReg c r v).gldms = s.gldms := by
  unfold State.writeReg State.setReg
  (repeat' split) <;> rfl
@[simp] theorem State.writeReg_co (s : State) (c : Nat) (r : Reg) (v : Word) : (s.writeReg c r v).co = s.co := by
  unfold State.writeReg State.setReg
  (repeat' split) <;> rfl
@[simp] theorem State.writeReg_ctl (s : State) (c : Nat) (r : Reg) (v : Word) : (s.writeReg c r v).ctl = s.ctl := by
  unfold State.writeReg State.setReg
  (repeat' split) <;> rfl
@[simp] theorem State.writeReg_io (s : State) (c : Nat) (r : Reg) (v : Word) : (s.writeReg c r v).io = s.io := by
  unfold State.writeReg State.setReg
  (repeat' split) <;> rfl
@[simp] theorem State.writeReg_hostOut (s : State) (c : Nat) (r : Reg) (v : Word) : (s.writeReg c r v).hostOut = s.hostOut := by
  unfold State.writeReg State.setReg
  (repeat' split) <;> rfl
@[simp] theorem State.writeReg_freeUse (s : State) (c : Nat) (r : Reg) (v : Word) : (s.writeReg c r v).freeUse = s.freeUse := by
  unfold State.writeReg State.setReg
  (repeat' split) <;> rfl
@[simp] theorem State.writeReg_turns (s : State) (c : Nat) (r : Reg) (v : Word) : (s.writeReg c r v).turns = s.turns := by
  unfold State.writeReg State.setReg
  (repeat' split) <;> rfl
@[simp] theorem State.writeReg_auto (s : State) (c : Nat) (r : Reg) (v : Word) : (s.writeReg c r v).auto = s.auto := by
  unfold State.writeReg State.setReg
  (repeat' split) <;> rfl
@[simp] theorem State.writeReg_actor (s : State) (c : Nat) (r : Reg) (v : Word) : (s.writeReg c r v).actor = s.actor := by
  unfold State.writeReg State.setReg
  (repeat' split) <;> rfl
@[simp] theorem State.writeReg_row (s : State) (c : Nat) (r : Reg) (v : Word) : (s.writeReg c r v).row = s.row := by
  unfold State.writeReg State.setReg
  (repeat' split) <;> rfl

@[simp] theorem State.acquire_now (s : State) (n : Nat) (sc : Scope) : (s.acquire n sc).now = s.now := by
  unfold State.acquire
  (repeat' split) <;> rfl
@[simp] theorem State.acquire_cycle (s : State) (n : Nat) (sc : Scope) : (s.acquire n sc).cycle = s.cycle := by
  unfold State.acquire
  (repeat' split) <;> rfl
@[simp] theorem State.acquire_mem (s : State) (n : Nat) (sc : Scope) : (s.acquire n sc).mem = s.mem := by
  unfold State.acquire
  (repeat' split) <;> rfl
@[simp] theorem State.acquire_bad (s : State) (n : Nat) (sc : Scope) : (s.acquire n sc).bad = s.bad := by
  unfold State.acquire
  (repeat' split) <;> rfl
@[simp] theorem State.acquire_ctxs (s : State) (n : Nat) (sc : Scope) : (s.acquire n sc).ctxs = s.ctxs := by
  unfold State.acquire
  (repeat' split) <;> rfl
@[simp] theorem State.acquire_clusters (s : State) (n : Nat) (sc : Scope) : (s.acquire n sc).clusters = s.clusters := by
  unfold State.acquire
  (repeat' split) <;> rfl
@[simp] theorem State.acquire_engines (s : State) (n : Nat) (sc : Scope) : (s.acquire n sc).engines = s.engines := by
  unfold State.acquire
  (repeat' split) <;> rfl
@[simp] theorem State.acquire_parked (s : State) (n : Nat) (sc : Scope) : (s.acquire n sc).parked = s.parked := by
  unfold State.acquire
  (repeat' split) <;> rfl
@[simp] theorem State.acquire_deferrals (s : State) (n : Nat) (sc : Scope) : (s.acquire n sc).deferrals = s.deferrals := by
  unfold State.acquire
  (repeat' split) <;> rfl
@[simp] theorem State.acquire_spilled (s : State) (n : Nat) (sc : Scope) : (s.acquire n sc).spilled = s.spilled := by
  unfold State.acquire
  (repeat' split) <;> rfl
@[simp] theorem State.acquire_waits (s : State) (n : Nat) (sc : Scope) : (s.acquire n sc).waits = s.waits := by
  unfold State.acquire
  (repeat' split) <;> rfl
@[simp] theorem State.acquire_walks (s : State) (n : Nat) (sc : Scope) : (s.acquire n sc).walks = s.walks := by
  unfold State.acquire
  (repeat' split) <;> rfl
@[simp] theorem State.acquire_beat (s : State) (n : Nat) (sc : Scope) : (s.acquire n sc).beat = s.beat := by
  unfold State.acquire
  (repeat' split) <;> rfl
@[simp] theorem State.acquire_gldms (s : State) (n : Nat) (sc : Scope) : (s.acquire n sc).gldms = s.gldms := by
  unfold State.acquire
  (repeat' split) <;> rfl
@[simp] theorem State.acquire_co (s : State) (n : Nat) (sc : Scope) : (s.acquire n sc).co = s.co := by
  unfold State.acquire
  (repeat' split) <;> rfl
@[simp] theorem State.acquire_ctl (s : State) (n : Nat) (sc : Scope) : (s.acquire n sc).ctl = s.ctl := by
  unfold State.acquire
  (repeat' split) <;> rfl
@[simp] theorem State.acquire_io (s : State) (n : Nat) (sc : Scope) : (s.acquire n sc).io = s.io := by
  unfold State.acquire
  (repeat' split) <;> rfl
@[simp] theorem State.acquire_hostOut (s : State) (n : Nat) (sc : Scope) : (s.acquire n sc).hostOut = s.hostOut := by
  unfold State.acquire
  (repeat' split) <;> rfl
@[simp] theorem State.acquire_freeUse (s : State) (n : Nat) (sc : Scope) : (s.acquire n sc).freeUse = s.freeUse := by
  unfold State.acquire
  (repeat' split) <;> rfl
@[simp] theorem State.acquire_turns (s : State) (n : Nat) (sc : Scope) : (s.acquire n sc).turns = s.turns := by
  unfold State.acquire
  (repeat' split) <;> rfl
@[simp] theorem State.acquire_auto (s : State) (n : Nat) (sc : Scope) : (s.acquire n sc).auto = s.auto := by
  unfold State.acquire
  (repeat' split) <;> rfl
@[simp] theorem State.acquire_actor (s : State) (n : Nat) (sc : Scope) : (s.acquire n sc).actor = s.actor := by
  unfold State.acquire
  (repeat' split) <;> rfl
@[simp] theorem State.acquire_row (s : State) (n : Nat) (sc : Scope) : (s.acquire n sc).row = s.row := by
  unfold State.acquire
  (repeat' split) <;> rfl

@[simp] theorem State.wake_now (s : State) (c : Nat) : (s.wake c).now = s.now := by
  unfold State.wake State.modCtx
  (repeat' split) <;> rfl
@[simp] theorem State.wake_cycle (s : State) (c : Nat) : (s.wake c).cycle = s.cycle := by
  unfold State.wake State.modCtx
  (repeat' split) <;> rfl
@[simp] theorem State.wake_mem (s : State) (c : Nat) : (s.wake c).mem = s.mem := by
  unfold State.wake State.modCtx
  (repeat' split) <;> rfl
@[simp] theorem State.wake_bad (s : State) (c : Nat) : (s.wake c).bad = s.bad := by
  unfold State.wake State.modCtx
  (repeat' split) <;> rfl
@[simp] theorem State.wake_clusters (s : State) (c : Nat) : (s.wake c).clusters = s.clusters := by
  unfold State.wake State.modCtx
  (repeat' split) <;> rfl
@[simp] theorem State.wake_engines (s : State) (c : Nat) : (s.wake c).engines = s.engines := by
  unfold State.wake State.modCtx
  (repeat' split) <;> rfl
@[simp] theorem State.wake_parked (s : State) (c : Nat) : (s.wake c).parked = s.parked := by
  unfold State.wake State.modCtx
  (repeat' split) <;> rfl
@[simp] theorem State.wake_deferrals (s : State) (c : Nat) : (s.wake c).deferrals = s.deferrals := by
  unfold State.wake State.modCtx
  (repeat' split) <;> rfl
@[simp] theorem State.wake_spilled (s : State) (c : Nat) : (s.wake c).spilled = s.spilled := by
  unfold State.wake State.modCtx
  (repeat' split) <;> rfl
@[simp] theorem State.wake_waits (s : State) (c : Nat) : (s.wake c).waits = s.waits := by
  unfold State.wake State.modCtx
  (repeat' split) <;> rfl
@[simp] theorem State.wake_walks (s : State) (c : Nat) : (s.wake c).walks = s.walks := by
  unfold State.wake State.modCtx
  (repeat' split) <;> rfl
@[simp] theorem State.wake_beat (s : State) (c : Nat) : (s.wake c).beat = s.beat := by
  unfold State.wake State.modCtx
  (repeat' split) <;> rfl
@[simp] theorem State.wake_gldms (s : State) (c : Nat) : (s.wake c).gldms = s.gldms := by
  unfold State.wake State.modCtx
  (repeat' split) <;> rfl
@[simp] theorem State.wake_co (s : State) (c : Nat) : (s.wake c).co = s.co := by
  unfold State.wake State.modCtx
  (repeat' split) <;> rfl
@[simp] theorem State.wake_ctl (s : State) (c : Nat) : (s.wake c).ctl = s.ctl := by
  unfold State.wake State.modCtx
  (repeat' split) <;> rfl
@[simp] theorem State.wake_io (s : State) (c : Nat) : (s.wake c).io = s.io := by
  unfold State.wake State.modCtx
  (repeat' split) <;> rfl
@[simp] theorem State.wake_hostOut (s : State) (c : Nat) : (s.wake c).hostOut = s.hostOut := by
  unfold State.wake State.modCtx
  (repeat' split) <;> rfl
@[simp] theorem State.wake_freeUse (s : State) (c : Nat) : (s.wake c).freeUse = s.freeUse := by
  unfold State.wake State.modCtx
  (repeat' split) <;> rfl
@[simp] theorem State.wake_turns (s : State) (c : Nat) : (s.wake c).turns = s.turns := by
  unfold State.wake State.modCtx
  (repeat' split) <;> rfl
@[simp] theorem State.wake_auto (s : State) (c : Nat) : (s.wake c).auto = s.auto := by
  unfold State.wake State.modCtx
  (repeat' split) <;> rfl
@[simp] theorem State.wake_actor (s : State) (c : Nat) : (s.wake c).actor = s.actor := by
  unfold State.wake State.modCtx
  (repeat' split) <;> rfl
@[simp] theorem State.wake_row (s : State) (c : Nat) : (s.wake c).row = s.row := by
  unfold State.wake State.modCtx
  (repeat' split) <;> rfl

@[simp] theorem State.count_now (s : State) (w : CountAt) (src n : Nat) : (s.count w src n).now = s.now := by
  cases w <;> simp only [State.count] <;> (repeat' split) <;> rfl
@[simp] theorem State.count_cycle (s : State) (w : CountAt) (src n : Nat) : (s.count w src n).cycle = s.cycle := by
  cases w <;> simp only [State.count] <;> (repeat' split) <;> rfl
@[simp] theorem State.count_mem (s : State) (w : CountAt) (src n : Nat) : (s.count w src n).mem = s.mem := by
  cases w <;> simp only [State.count] <;> (repeat' split) <;> rfl
@[simp] theorem State.count_bad (s : State) (w : CountAt) (src n : Nat) : (s.count w src n).bad = s.bad := by
  cases w <;> simp only [State.count] <;> (repeat' split) <;> rfl
@[simp] theorem State.count_ctxs (s : State) (w : CountAt) (src n : Nat) : (s.count w src n).ctxs = s.ctxs := by
  cases w <;> simp only [State.count] <;> (repeat' split) <;> rfl
@[simp] theorem State.count_cores (s : State) (w : CountAt) (src n : Nat) : (s.count w src n).cores = s.cores := by
  cases w <;> simp only [State.count] <;> (repeat' split) <;> rfl
@[simp] theorem State.count_engines (s : State) (w : CountAt) (src n : Nat) : (s.count w src n).engines = s.engines := by
  cases w <;> simp only [State.count] <;> (repeat' split) <;> rfl
@[simp] theorem State.count_parked (s : State) (w : CountAt) (src n : Nat) : (s.count w src n).parked = s.parked := by
  cases w <;> simp only [State.count] <;> (repeat' split) <;> rfl
@[simp] theorem State.count_deferrals (s : State) (w : CountAt) (src n : Nat) : (s.count w src n).deferrals = s.deferrals := by
  cases w <;> simp only [State.count] <;> (repeat' split) <;> rfl
@[simp] theorem State.count_spilled (s : State) (w : CountAt) (src n : Nat) : (s.count w src n).spilled = s.spilled := by
  cases w <;> simp only [State.count] <;> (repeat' split) <;> rfl
@[simp] theorem State.count_waits (s : State) (w : CountAt) (src n : Nat) : (s.count w src n).waits = s.waits := by
  cases w <;> simp only [State.count] <;> (repeat' split) <;> rfl
@[simp] theorem State.count_walks (s : State) (w : CountAt) (src n : Nat) : (s.count w src n).walks = s.walks := by
  cases w <;> simp only [State.count] <;> (repeat' split) <;> rfl
@[simp] theorem State.count_beat (s : State) (w : CountAt) (src n : Nat) : (s.count w src n).beat = s.beat := by
  cases w <;> simp only [State.count] <;> (repeat' split) <;> rfl
@[simp] theorem State.count_gldms (s : State) (w : CountAt) (src n : Nat) : (s.count w src n).gldms = s.gldms := by
  cases w <;> simp only [State.count] <;> (repeat' split) <;> rfl
@[simp] theorem State.count_co (s : State) (w : CountAt) (src n : Nat) : (s.count w src n).co = s.co := by
  cases w <;> simp only [State.count] <;> (repeat' split) <;> rfl
@[simp] theorem State.count_io (s : State) (w : CountAt) (src n : Nat) : (s.count w src n).io = s.io := by
  cases w <;> simp only [State.count] <;> (repeat' split) <;> rfl
@[simp] theorem State.count_hostOut (s : State) (w : CountAt) (src n : Nat) : (s.count w src n).hostOut = s.hostOut := by
  cases w <;> simp only [State.count] <;> (repeat' split) <;> rfl
@[simp] theorem State.count_freeUse (s : State) (w : CountAt) (src n : Nat) : (s.count w src n).freeUse = s.freeUse := by
  cases w <;> simp only [State.count] <;> (repeat' split) <;> rfl
@[simp] theorem State.count_turns (s : State) (w : CountAt) (src n : Nat) : (s.count w src n).turns = s.turns := by
  cases w <;> simp only [State.count] <;> (repeat' split) <;> rfl
@[simp] theorem State.count_auto (s : State) (w : CountAt) (src n : Nat) : (s.count w src n).auto = s.auto := by
  cases w <;> simp only [State.count] <;> (repeat' split) <;> rfl
@[simp] theorem State.count_actor (s : State) (w : CountAt) (src n : Nat) : (s.count w src n).actor = s.actor := by
  cases w <;> simp only [State.count] <;> (repeat' split) <;> rfl
@[simp] theorem State.count_row (s : State) (w : CountAt) (src n : Nat) : (s.count w src n).row = s.row := by
  cases w <;> simp only [State.count] <;> (repeat' split) <;> rfl

@[simp] theorem State.logDevice_now (s : State) (c w : Nat) (a : Word) (r : Nat) : (s.logDevice c w a r).now = s.now := by
  simp only [State.logDevice]
  (repeat' split) <;> rfl
@[simp] theorem State.logDevice_cycle (s : State) (c w : Nat) (a : Word) (r : Nat) : (s.logDevice c w a r).cycle = s.cycle := by
  simp only [State.logDevice]
  (repeat' split) <;> rfl
@[simp] theorem State.logDevice_mem (s : State) (c w : Nat) (a : Word) (r : Nat) : (s.logDevice c w a r).mem = s.mem := by
  simp only [State.logDevice]
  (repeat' split) <;> rfl
@[simp] theorem State.logDevice_bad (s : State) (c w : Nat) (a : Word) (r : Nat) : (s.logDevice c w a r).bad = s.bad := by
  simp only [State.logDevice]
  (repeat' split) <;> rfl
@[simp] theorem State.logDevice_ctxs (s : State) (c w : Nat) (a : Word) (r : Nat) : (s.logDevice c w a r).ctxs = s.ctxs := by
  simp only [State.logDevice]
  (repeat' split) <;> rfl
@[simp] theorem State.logDevice_cores (s : State) (c w : Nat) (a : Word) (r : Nat) : (s.logDevice c w a r).cores = s.cores := by
  simp only [State.logDevice]
  (repeat' split) <;> rfl
@[simp] theorem State.logDevice_clusters (s : State) (c w : Nat) (a : Word) (r : Nat) : (s.logDevice c w a r).clusters = s.clusters := by
  simp only [State.logDevice]
  (repeat' split) <;> rfl
@[simp] theorem State.logDevice_engines (s : State) (c w : Nat) (a : Word) (r : Nat) : (s.logDevice c w a r).engines = s.engines := by
  simp only [State.logDevice]
  (repeat' split) <;> rfl
@[simp] theorem State.logDevice_parked (s : State) (c w : Nat) (a : Word) (r : Nat) : (s.logDevice c w a r).parked = s.parked := by
  simp only [State.logDevice]
  (repeat' split) <;> rfl
@[simp] theorem State.logDevice_deferrals (s : State) (c w : Nat) (a : Word) (r : Nat) : (s.logDevice c w a r).deferrals = s.deferrals := by
  simp only [State.logDevice]
  (repeat' split) <;> rfl
@[simp] theorem State.logDevice_spilled (s : State) (c w : Nat) (a : Word) (r : Nat) : (s.logDevice c w a r).spilled = s.spilled := by
  simp only [State.logDevice]
  (repeat' split) <;> rfl
@[simp] theorem State.logDevice_waits (s : State) (c w : Nat) (a : Word) (r : Nat) : (s.logDevice c w a r).waits = s.waits := by
  simp only [State.logDevice]
  (repeat' split) <;> rfl
@[simp] theorem State.logDevice_walks (s : State) (c w : Nat) (a : Word) (r : Nat) : (s.logDevice c w a r).walks = s.walks := by
  simp only [State.logDevice]
  (repeat' split) <;> rfl
@[simp] theorem State.logDevice_beat (s : State) (c w : Nat) (a : Word) (r : Nat) : (s.logDevice c w a r).beat = s.beat := by
  simp only [State.logDevice]
  (repeat' split) <;> rfl
@[simp] theorem State.logDevice_gldms (s : State) (c w : Nat) (a : Word) (r : Nat) : (s.logDevice c w a r).gldms = s.gldms := by
  simp only [State.logDevice]
  (repeat' split) <;> rfl
@[simp] theorem State.logDevice_co (s : State) (c w : Nat) (a : Word) (r : Nat) : (s.logDevice c w a r).co = s.co := by
  simp only [State.logDevice]
  (repeat' split) <;> rfl
@[simp] theorem State.logDevice_io (s : State) (c w : Nat) (a : Word) (r : Nat) : (s.logDevice c w a r).io = s.io := by
  simp only [State.logDevice]
  (repeat' split) <;> rfl
@[simp] theorem State.logDevice_hostOut (s : State) (c w : Nat) (a : Word) (r : Nat) : (s.logDevice c w a r).hostOut = s.hostOut := by
  simp only [State.logDevice]
  (repeat' split) <;> rfl
@[simp] theorem State.logDevice_freeUse (s : State) (c w : Nat) (a : Word) (r : Nat) : (s.logDevice c w a r).freeUse = s.freeUse := by
  simp only [State.logDevice]
  (repeat' split) <;> rfl
@[simp] theorem State.logDevice_turns (s : State) (c w : Nat) (a : Word) (r : Nat) : (s.logDevice c w a r).turns = s.turns := by
  simp only [State.logDevice]
  (repeat' split) <;> rfl
@[simp] theorem State.logDevice_auto (s : State) (c w : Nat) (a : Word) (r : Nat) : (s.logDevice c w a r).auto = s.auto := by
  simp only [State.logDevice]
  (repeat' split) <;> rfl
@[simp] theorem State.logDevice_actor (s : State) (c w : Nat) (a : Word) (r : Nat) : (s.logDevice c w a r).actor = s.actor := by
  simp only [State.logDevice]
  (repeat' split) <;> rfl
@[simp] theorem State.logDevice_row (s : State) (c w : Nat) (a : Word) (r : Nat) : (s.logDevice c w a r).row = s.row := by
  simp only [State.logDevice]
  (repeat' split) <;> rfl

@[simp] theorem State.logFabric_now (s : State) (w c d a : Nat) : (s.logFabric w c d a).now = s.now := by
  simp only [State.logFabric]
  (repeat' split) <;> rfl
@[simp] theorem State.logFabric_cycle (s : State) (w c d a : Nat) : (s.logFabric w c d a).cycle = s.cycle := by
  simp only [State.logFabric]
  (repeat' split) <;> rfl
@[simp] theorem State.logFabric_mem (s : State) (w c d a : Nat) : (s.logFabric w c d a).mem = s.mem := by
  simp only [State.logFabric]
  (repeat' split) <;> rfl
@[simp] theorem State.logFabric_bad (s : State) (w c d a : Nat) : (s.logFabric w c d a).bad = s.bad := by
  simp only [State.logFabric]
  (repeat' split) <;> rfl
@[simp] theorem State.logFabric_ctxs (s : State) (w c d a : Nat) : (s.logFabric w c d a).ctxs = s.ctxs := by
  simp only [State.logFabric]
  (repeat' split) <;> rfl
@[simp] theorem State.logFabric_cores (s : State) (w c d a : Nat) : (s.logFabric w c d a).cores = s.cores := by
  simp only [State.logFabric]
  (repeat' split) <;> rfl
@[simp] theorem State.logFabric_clusters (s : State) (w c d a : Nat) : (s.logFabric w c d a).clusters = s.clusters := by
  simp only [State.logFabric]
  (repeat' split) <;> rfl
@[simp] theorem State.logFabric_engines (s : State) (w c d a : Nat) : (s.logFabric w c d a).engines = s.engines := by
  simp only [State.logFabric]
  (repeat' split) <;> rfl
@[simp] theorem State.logFabric_parked (s : State) (w c d a : Nat) : (s.logFabric w c d a).parked = s.parked := by
  simp only [State.logFabric]
  (repeat' split) <;> rfl
@[simp] theorem State.logFabric_deferrals (s : State) (w c d a : Nat) : (s.logFabric w c d a).deferrals = s.deferrals := by
  simp only [State.logFabric]
  (repeat' split) <;> rfl
@[simp] theorem State.logFabric_spilled (s : State) (w c d a : Nat) : (s.logFabric w c d a).spilled = s.spilled := by
  simp only [State.logFabric]
  (repeat' split) <;> rfl
@[simp] theorem State.logFabric_waits (s : State) (w c d a : Nat) : (s.logFabric w c d a).waits = s.waits := by
  simp only [State.logFabric]
  (repeat' split) <;> rfl
@[simp] theorem State.logFabric_walks (s : State) (w c d a : Nat) : (s.logFabric w c d a).walks = s.walks := by
  simp only [State.logFabric]
  (repeat' split) <;> rfl
@[simp] theorem State.logFabric_beat (s : State) (w c d a : Nat) : (s.logFabric w c d a).beat = s.beat := by
  simp only [State.logFabric]
  (repeat' split) <;> rfl
@[simp] theorem State.logFabric_gldms (s : State) (w c d a : Nat) : (s.logFabric w c d a).gldms = s.gldms := by
  simp only [State.logFabric]
  (repeat' split) <;> rfl
@[simp] theorem State.logFabric_co (s : State) (w c d a : Nat) : (s.logFabric w c d a).co = s.co := by
  simp only [State.logFabric]
  (repeat' split) <;> rfl
@[simp] theorem State.logFabric_hostOut (s : State) (w c d a : Nat) : (s.logFabric w c d a).hostOut = s.hostOut := by
  simp only [State.logFabric]
  (repeat' split) <;> rfl
@[simp] theorem State.logFabric_freeUse (s : State) (w c d a : Nat) : (s.logFabric w c d a).freeUse = s.freeUse := by
  simp only [State.logFabric]
  (repeat' split) <;> rfl
@[simp] theorem State.logFabric_turns (s : State) (w c d a : Nat) : (s.logFabric w c d a).turns = s.turns := by
  simp only [State.logFabric]
  (repeat' split) <;> rfl
@[simp] theorem State.logFabric_auto (s : State) (w c d a : Nat) : (s.logFabric w c d a).auto = s.auto := by
  simp only [State.logFabric]
  (repeat' split) <;> rfl
@[simp] theorem State.logFabric_actor (s : State) (w c d a : Nat) : (s.logFabric w c d a).actor = s.actor := by
  simp only [State.logFabric]
  (repeat' split) <;> rfl
@[simp] theorem State.logFabric_row (s : State) (w c d a : Nat) : (s.logFabric w c d a).row = s.row := by
  simp only [State.logFabric]
  (repeat' split) <;> rfl


@[simp] theorem State.ctx?_setCtx_self (s : State) (c : Nat) (x : Ctx) : (s.setCtx c x).ctx? c = some x := by simp [State.ctx?]

theorem State.ctx?_setCtx_ne (s : State) {c k : Nat} (x : Ctx) (h : k ≠ c) : (s.setCtx c x).ctx? k = s.ctx? k := by
  simp [State.ctx?, SMap.find?_insert_ne _ _ h]

@[simp] theorem State.core_setCore_self (s : State) (n : Nat) (x : Core) : (s.setCore n x).core n = x := by simp [State.core]

theorem State.core_setCore_ne (s : State) {n m : Nat} (x : Core) (h : m ≠ n) : (s.setCore n x).core m = s.core m := by
  simp [State.core, SMap.getD_insert_ne _ _ _ h]

@[simp] theorem State.cluster_setCluster_self (s : State) (k : Nat) (x : Cluster) : (s.setCluster k x).cluster k = x := by simp [State.cluster]

theorem State.cluster_setCluster_ne (s : State) {k j : Nat} (x : Cluster) (h : j ≠ k) : (s.setCluster k x).cluster j = s.cluster j := by
  simp [State.cluster, SMap.getD_insert_ne _ _ _ h]

@[simp] theorem State.engine_setEngine_self (s : State) (n : Nat) (x : Engine) : (s.setEngine n x).engine n = x := by simp [State.engine]

@[simp] theorem State.mx_setMx_self (s : State) (k : Nat) (u : MxUnit) (m : Mx) : (s.setMx k u m).mx k u = m := by
  cases u <;> simp [State.mx, State.setMx, Cluster.setMx, Cluster.mx]

@[simp] theorem State.mx_setMx_other (s : State) (k : Nat) (u : MxUnit) (m : Mx) :
    (s.setMx k u m).mx k (MxUnit.other u) = s.mx k (MxUnit.other u) := by
  cases u <;> simp [State.mx, State.setMx, Cluster.setMx, Cluster.mx, MxUnit.other]

theorem State.ctx?_modCtx (s : State) (c k : Nat) (f : Ctx → Ctx) :
    (s.modCtx c f).ctx? k = if k = c then (s.ctx? c).map f else s.ctx? k := by
  unfold State.modCtx
  split
  · rename_i x hx
    split
    · subst_vars; simp [hx]
    · exact State.ctx?_setCtx_ne s _ ‹_›
  · rename_i hx
    split
    · subst_vars; simp [hx]
    · rfl

/-- All that giving parts of a write up does: each of their devices is told. -/
theorem State.forgo_eq (s : State) (region : Nat) (user : Bool) (l : List (Nat × Nat)) :
    s.forgo region user l = { s with io := { s.io with sent := s.io.sent ++ l.map (fun p =>
      ⟨p.1 / Config.localEnd, region % 2 ^ 32, !user, true, p.1 % Config.localEnd, .forgo p.2⟩) } } := by
  unfold State.forgo
  induction l generalizing s with
  | nil => simp
  | cons p l ih => rw [List.foldl_cons, ih]; simp [State.send]

/-- An instruction for which no other device keeps anything has nothing to give up. -/
theorem State.giveUp_none {s : State} {c : Nat} (h : ∀ x, s.ctx? c = some x → x.granted = []) : s.giveUp c = s := by
  unfold State.giveUp
  split
  · rename_i x hx; simp [h x hx]
  · rfl

/-- All that an instruction that fails changes: its context's slot, and what it tells other devices. -/
theorem State.giveUp_frame (s : State) (c : Nat) : { s.giveUp c with ctxs := s.ctxs, io := s.io } = s := by
  unfold State.giveUp
  split
  · split
    · rfl
    · rw [State.forgo_eq]; rfl
  · rfl

@[simp] theorem State.giveUp_mem (s : State) (c : Nat) : (s.giveUp c).mem = s.mem := by
  have := congrArg State.mem (s.giveUp_frame c); exact this
@[simp] theorem State.fails_mem (s : State) (c : Nat) : (s.fails c).mem = s.mem := by simp [State.fails]

/-- A register write keeps the canonical form of memory. -/
theorem memWf_setReg {s : State} (x : Ctx) (r : Reg) (v : Word) (h : memWf s.mem = true) : memWf (s.setReg x r v).mem = true := by
  unfold State.setReg; split
  · exact h
  · exact memWf_poke64 _ _ h

theorem memWf_writeReg {s : State} (c : Nat) (r : Reg) (v : Word) (h : memWf s.mem = true) : memWf (s.writeReg c r v).mem = true := by
  unfold State.writeReg; split
  · exact memWf_setReg _ _ _ h
  · exact h

/-- A byte outside a register's eight is not changed by a write to it. -/
theorem memByte_setReg {s : State} (x : Ctx) (r : Reg) (v : Word) (a : Nat) (h : memWf s.mem = true)
    (ha : ¬ (r ≠ 0 ∧ x.wp.toNat + 8 * r.toNat ≤ a ∧ a < x.wp.toNat + 8 * r.toNat + 8)) :
    memByte (s.setReg x r v).mem a = memByte s.mem a := by
  unfold State.setReg; split
  · rfl
  · rename_i hr
    refine memByte_memWrite_outside _ _ h ?_
    rw [leBytes_length]
    by_cases h1 : x.wp.toNat + 8 * r.toNat ≤ a
    · right; exact Nat.le_of_not_lt (fun h2 => ha ⟨hr, h1, h2⟩)
    · left; omega

end Sys2Proof.Machine
end

