-- ==== Sys2Proof/Laws/Translate.lean ====
section
/-! SUPPORT. What translation and the checks of an access can do (13 R301 to R310): they fill and drop cached translations and count events, and
leave everything else of the machine as it was, the places of requests that wait apart. -/
namespace Sys2Proof.Machine

/-- Two states that differ at most in cached translations, counters and their interrupt, in the requests that wait at home slices and the walks that
they have started, and in whether one of the row that acts does. -/
structure State.SameBut (s t : State) : Prop where
  mem : t.mem = s.mem
  bad : t.bad = s.bad
  ctxs : t.ctxs = s.ctxs
  co : t.co = s.co
  io : t.io = s.io
  now : t.now = s.now
  cycle : t.cycle = s.cycle
  parked : t.parked = s.parked
  deferrals : t.deferrals = s.deferrals
  spilled : t.spilled = s.spilled
  gldms : t.gldms = s.gldms
  hostOut : t.hostOut = s.hostOut
  freeUse : t.freeUse = s.freeUse
  turns : t.turns = s.turns
  auto : t.auto = s.auto
  actor : t.actor = s.actor
  beat : t.beat = s.beat

theorem State.SameBut.refl (s : State) : s.SameBut s := by constructor <;> rfl

theorem State.SameBut.trans {s t u : State} (h : s.SameBut t) (g : t.SameBut u) : s.SameBut u := by
  obtain ⟨a1, a2, a3, a4, a5, a6, a7, a8, a9, a10, a11, a12, a13, a14, a15, a16, a17⟩ := h
  obtain ⟨b1, b2, b3, b4, b5, b6, b7, b8, b9, b10, b11, b12, b13, b14, b15, b16, b17⟩ := g
  constructor <;> simp_all

theorem State.SameBut.setCore (s : State) (n : Nat) (x : Core) : s.SameBut (s.setCore n x) := by constructor <;> rfl
theorem State.SameBut.setCluster (s : State) (k : Nat) (x : Cluster) : s.SameBut (s.setCluster k x) := by constructor <;> rfl
theorem State.SameBut.setEngine (s : State) (n : Nat) (x : Engine) : s.SameBut (s.setEngine n x) := by constructor <;> rfl
theorem State.SameBut.count (s : State) (w : CountAt) (src n : Nat) : s.SameBut (s.count w src n) := by constructor <;> simp

theorem State.SameBut.waitAt (s : State) (me : Option Waiter) (line : Nat) : s.SameBut (s.waitAt me line) := by
  unfold State.waitAt
  dsimp only
  repeat' split
  · constructor <;> rfl
  · exact State.SameBut.trans (t := { s.rowHeld _ with waits := s.waits ++ [(_, line)] }) (by constructor <;> rfl) (.count _ _ _ _)
  · constructor <;> rfl
  · exact .refl _

theorem State.SameBut.clusterTlbAdd (s : State) (k : Nat) (e : TlbEntry) : s.SameBut (s.clusterTlbAdd k e) := by
  unfold State.clusterTlbAdd
  dsimp only
  split
  · exact .refl _
  · exact .setCluster _ _ _

theorem State.SameBut.tlbFill (s : State) (w : Who) (e : TlbEntry) : s.SameBut (s.tlbFill w e) := by
  unfold State.tlbFill
  split
  · exact (State.SameBut.setCore _ _ _).trans (.clusterTlbAdd _ _ _)
  · exact .setEngine _ _ _
  · exact .clusterTlbAdd _ _ _
  · exact .refl _

theorem State.SameBut.tlbForget (s : State) (w : Who) (va : Word) : s.SameBut (s.tlbForget w va) := by
  unfold State.tlbForget
  split
  · exact (State.SameBut.setCore _ _ _).trans (.setCluster _ _ _)
  · exact .setEngine _ _ _
  · exact .setCluster _ _ _
  · exact .refl _

theorem State.SameBut.startWalk (s : State) (w : Who) (va : Word) : s.SameBut (s.startWalk w va) := by
  unfold State.startWalk
  split
  · dsimp only
    split
    · exact .refl _
    · exact State.SameBut.trans (t := { s with walks := _ }) (by constructor <;> rfl) (.count _ _ _ _)
  · exact .count _ _ _ _

theorem State.SameBut.endWalk (s : State) (w : Who) (va : Word) : s.SameBut (s.endWalk w va) := by
  unfold State.endWalk
  repeat' split
  · exact .refl _
  · constructor <;> rfl
  · exact .refl _

theorem State.SameBut.leaf (s : State) (w : Who) (va : Word) (acc : Nat) : s.SameBut (s.leaf w va acc).1 := by
  unfold State.leaf
  split
  · exact .refl _
  · dsimp only
    split <;> dsimp only
    · exact ((State.SameBut.startWalk _ _ _).trans (.endWalk _ _ _)).trans (.tlbFill _ _ _)
    · exact (State.SameBut.startWalk _ _ _).trans (.endWalk _ _ _)
    · generalize walkStop _ _ _ _ _ = o
      cases o <;> dsimp only [Option.elim]
      · exact .startWalk _ _ _
      · exact (State.SameBut.startWalk _ _ _).trans (.waitAt _ _ _)

/-- Translation of one address. -/
theorem State.SameBut.xlate {s t : State} {w : Who} {need : Need} {want : Place → Bool} {va : Word} {r : Res Nat}
    (h : s.xlate w need want va = (t, r)) : s.SameBut t := by
  have hl := State.SameBut.leaf s w va need.acc
  unfold State.xlate at h
  split at h
  · cases h; exact .refl _
  · split at h
    · split at h
      · (repeat' split at h) <;> (obtain ⟨rfl, -⟩ := Prod.mk.inj h; exact .refl _)
      · cases h; exact .refl _
      · cases h; exact .refl _
    · split at h
      · rename_i heq
        rw [heq] at hl
        dsimp only at h
        split at h
        · split at h
          · cases h; exact hl.trans (.tlbForget _ _ _)
          · split at h
            · cases h
              split
              · exact hl.trans (.tlbForget _ _ _)
              · exact hl
            · cases h; exact hl
        · cases h; exact hl.trans (.tlbForget _ _ _)
        · cases h; exact hl
      · rename_i heq; rw [heq] at hl; cases h; exact hl
      · rename_i heq; rw [heq] at hl; cases h; exact hl

/-- The checks of one part of an access. -/
theorem State.SameBut.checkPart {s t : State} {w : Who} {need : Need} {want : Place → Bool} {va : Word} {n : Nat} {r : Res Nat}
    (h : s.checkPart w need want va n = (t, r)) : s.SameBut t := by
  unfold State.checkPart at h
  split at h
  · have := State.SameBut.xlate ‹_›
    split at h
    · cases h; exact this
    · split at h
      · cases h; exact this
      · split at h <;> (cases h; exact this)
  · cases h; exact .xlate ‹_›
  · cases h; exact .xlate ‹_›

/-- The checks of an access of one or two lines. -/
theorem State.SameBut.checkAccess {s t : State} {w : Who} {need : Need} {want : Place → Bool} {va : Word} {n : Nat}
    {r : Res (List (Nat × Nat))} (h : s.checkAccess w need want va n = (t, r)) : s.SameBut t := by
  unfold State.checkAccess at h
  dsimp only at h
  split at h
  · have := State.SameBut.checkPart ‹_›
    split at h
    · cases h; exact this
    · split at h <;> (cases h; exact this.trans (.checkPart ‹_›))
  · cases h; exact .checkPart ‹_›
  · cases h; exact .checkPart ‹_›

/-- The checks of an access of many lines. -/
theorem State.SameBut.checkLines {s t : State} {w : Who} {need : Need} {want : Place → Bool} {fuel : Nat} {va : Word} {n : Nat}
    {r : Res (List (Nat × Nat))} (h : s.checkLines w need want fuel va n = (t, r)) : s.SameBut t := by
  induction fuel generalizing s t va n r with
  | zero => unfold State.checkLines at h; cases h; exact .refl _
  | succ f ih =>
    unfold State.checkLines at h
    split at h
    · cases h; exact .refl _
    · dsimp only at h
      split at h
      · have hp := State.SameBut.checkPart ‹_›
        split at h
        · cases h; exact hp.trans (ih ‹_›)
        · exact hp.trans (ih h)
      · cases h; exact .checkPart ‹_›
      · cases h; exact .checkPart ‹_›

/-- A future cell's address. -/
theorem State.SameBut.cell {s t : State} {w : Who} {need : Need} {va : Word} {r : Res Nat} (h : s.cell w need va = (t, r)) : s.SameBut t := by
  unfold State.cell at h
  split at h
  · cases h; exact .refl _
  · exact .checkPart h

/-- Readers that such states share. -/
theorem State.SameBut.reg {s t : State} (h : s.SameBut t) (x : Ctx) (r : Reg) : t.reg x r = s.reg x r := by
  simp only [State.reg, State.peek64, State.peek, h.mem]

theorem State.SameBut.ctx? {s t : State} (h : s.SameBut t) (c : Nat) : t.ctx? c = s.ctx? c := by simp only [State.ctx?, h.ctxs]

theorem State.SameBut.region? {s t : State} (h : s.SameBut t) (id : Nat) : t.region? id = s.region? id := by simp only [State.region?, h.co]

theorem State.SameBut.span? {s t : State} (h : s.SameBut t) (n : Nat) : t.span? n = s.span? n := by simp only [State.span?, h.co]

end Sys2Proof.Machine
end

