-- ==== Sys2Proof/Laws/Run.lean ====
section
/-! SUPPORT. What runs an instruction, said once: a swarm instruction whose checks pass is its body's end (04 R93), an op of a matrix unit is its
checks or its effect (10 R226). -/
namespace Sys2Proof.Machine

theorem badSource_none {s : State} {x : Ctx} {srcs : List Reg} (h : ∀ r ∈ srcs, r = 0 ∨ badIn s.bad (x.wp.toNat + 8 * r.toNat) 8 = false) :
    badSource s x srcs = none := by
  unfold badSource
  rw [List.find?_eq_none]
  intro r hr
  rcases h r hr with rfl | h
  · simp
  · simp [h]

/-- What lets an instruction run is what its checks ask. -/
theorem State.lets.issueFault {s : State} {c : Nat} {x : Ctx} {i : Instr} {feats : List Nat} {sup : Bool} {srcs : List Reg}
    (h : s.lets c x i feats sup srcs) : issueFault s c x i feats sup srcs = none := by
  obtain ⟨hw, hf, hs, hb⟩ := h
  have hw' : i.wf = true := hw
  have hf' : (feats.all fun b => (s.feat (dieOfCluster (clusterOf c))).getLsbD b) = true := List.all_eq_true.mpr hf
  unfold Machine.issueFault
  simp only [hw', hf', badSource_none hb]
  cases sup
  · simp
  · simp [hs rfl]

/-- A swarm instruction in the context whose turn it is, with nothing that stops it. -/
theorem runSwarm_of {s : State} {c : Nat} {w : Word32} {x : Ctx} {i : Instr} {feats : List Nat} {sup : Bool} {srcs : List Reg}
    {body : Nat → Ctx → State → Exec} (ha : s.acts c w x) (hl : s.lets c x i feats sup srcs) :
    runSwarm i feats sup srcs body s = .next (finish c x w (body c x s)) := by
  obtain ⟨h1, h2⟩ := ha
  unfold runSwarm
  rw [h1]
  simp only [h2, hl.issueFault]

/-- A swarm instruction that a check stops. -/
theorem runSwarm_stops {s : State} {c : Nat} {w : Word32} {x : Ctx} {i : Instr} {feats : List Nat} {sup : Bool} {srcs : List Reg}
    {body : Nat → Ctx → State → Exec} {f : FaultInfo} (ha : s.acts c w x) (hf : issueFault s c x i feats sup srcs = some f) :
    runSwarm i feats sup srcs body s = .next (takeTrap s c x f w) := by
  obtain ⟨h1, h2⟩ := ha
  unfold runSwarm
  rw [h1]
  simp only [h2, hf]

@[simp] theorem finish_ok (c : Nat) (x : Ctx) (w : Word32) (s : State) : finish c x w (.ok s) = s.past c x .idle := rfl
@[simp] theorem finish_jump (c : Nat) (x : Ctx) (w : Word32) (s : State) (pc : Word) : finish c x w (.jump s pc) = s.goes c pc := rfl
@[simp] theorem finish_busy (c : Nat) (x : Ctx) (w : Word32) (s : State) (st : CtxState) : finish c x w (.busy s st) = s.past c x st := rfl
@[simp] theorem finish_trap (c : Nat) (x : Ctx) (w : Word32) (s : State) (f : FaultInfo) : finish c x w (.trap s f) = takeTrap s c x f w := rfl
@[simp] theorem finish_gone (c : Nat) (x : Ctx) (w : Word32) (s : State) : finish c x w (.gone s) = s := rfl

/-- A body that writes one value. -/
theorem finish_result (c : Nat) (x : Ctx) (w : Word32) (d : Reg) (f : Ctx → State → Word) (s : State) :
    finish c x w (result d f c x s) = s.gives c x d (f x s) := rfl

/-- An op of a matrix unit takes its issue step. -/
theorem runMx_of {s : State} {k : Nat} {u : MxUnit} {head : Nat} {i : Instr} {check : Nat → MxUnit → State → Option FaultInfo}
    {perform : Nat → MxUnit → Nat → State → State} (h : s.performs k u head i) (hc : check k u s = none) :
    runMx i check perform s = .next (perform k u head s) := by
  obtain ⟨hw, h | h⟩ := h
  · unfold runMx; rw [h]
  · obtain ⟨h, hr⟩ := h
    have hw' : i.wf = true := hw
    have hr' : (s.mx k u).regFault i = none := hr
    unfold runMx
    rw [h]
    simp only [hw', if_true, hr', hc, Option.or_none]

/-- An op in its bundle's check pass changes nothing when its checks pass. -/
theorem runMx_check {s : State} {k : Nat} {u : MxUnit} {head : Nat} {i : Instr} {check : Nat → MxUnit → State → Option FaultInfo}
    {perform : Nat → MxUnit → Nat → State → State} (hw : i.WellFormed) (h : s.actor = .mx k u .check head)
    (hr : s.intact k u i) (hc : check k u s = none) : runMx i check perform s = .next s := by
  have hw' : i.wf = true := hw
  have hr' : (s.mx k u).regFault i = none := hr
  unfold runMx
  rw [h]
  simp only [hw', if_true, hr', hc, Option.or_none]

/-- An op whose check fails faults its unit. -/
theorem runMx_faults {s : State} {k : Nat} {u : MxUnit} {head : Nat} {i : Instr} {check : Nat → MxUnit → State → Option FaultInfo}
    {perform : Nat → MxUnit → Nat → State → State} {f : FaultInfo} (hw : i.WellFormed)
    (h : s.actor = .mx k u .check head ∨ s.actor = .mx k u .alone head) (hr : s.intact k u i) (hc : check k u s = some f) :
    runMx i check perform s = .next (s.mxFault k u head f) := by
  have hw' : i.wf = true := hw
  have hr' : (s.mx k u).regFault i = none := hr
  unfold runMx
  rcases h with h | h <;> (rw [h]; simp only [hw', if_true, hr', hc, Option.none_or])

/-- An op that reads a register with an uncorrectable error faults its unit before its own checks (13 R317). -/
theorem runMx_bad {s : State} {k : Nat} {u : MxUnit} {head : Nat} {i : Instr} {check : Nat → MxUnit → State → Option FaultInfo}
    {perform : Nat → MxUnit → Nat → State → State} {f : FaultInfo} (hw : i.WellFormed)
    (h : s.actor = .mx k u .check head ∨ s.actor = .mx k u .alone head) (hr : (s.mx k u).regFault i = some f) :
    runMx i check perform s = .next (s.mxFault k u head f) := by
  have hw' : i.wf = true := hw
  unfold runMx
  rcases h with h | h <;> (rw [h]; simp only [hw', if_true, hr, Option.some_or])

/-- A context moved on: the slot, and nothing else. -/
theorem State.past_eq {s : State} {c : Nat} {x y : Ctx} (st : CtxState) (h : s.ctx? c = some y) :
    s.past c x st = s.setCtx c { y with pc := x.pc + 4, st := st, got := [], mark := none } := by
  unfold State.past State.modCtx; rw [h]

@[simp] theorem State.past_mem (s : State) (c : Nat) (x : Ctx) (st : CtxState) : (s.past c x st).mem = s.mem := by simp [State.past]
@[simp] theorem State.goes_mem (s : State) (c : Nat) (pc : Word) : (s.goes c pc).mem = s.mem := by simp [State.goes]
@[simp] theorem State.ctx?_setReg (s : State) (x : Ctx) (r : Reg) (v : Word) (c : Nat) : (s.setReg x r v).ctx? c = s.ctx? c := by
  simp [State.ctx?]

/-- The register forms' frame: wd's bytes, the context's own fields, and nothing else (05 R103). -/
theorem State.gives_frame {s : State} {c : Nat} {x : Ctx} (d : Reg) (v : Word) (hm : memWf s.mem = true) (hx : s.ctx? c = some x) :
    (∀ a, ¬ regBytes x d a → memByte (s.gives c x d v).mem a = memByte s.mem a) ∧
    (∀ k, k ≠ c → (s.gives c x d v).ctx? k = s.ctx? k) ∧
    (s.gives c x d v).ctx? c = some { x with pc := x.pc + 4, st := .idle, got := [], mark := none } := by
  refine ⟨fun a ha => ?_, fun k hk => ?_, ?_⟩
  · simp only [State.gives, State.past_mem]
    exact memByte_setReg x d v a hm ha
  · simp [State.gives, State.past, State.ctx?_modCtx, hk]
  · simp [State.gives, State.past, State.ctx?_modCtx, hx]

/-- Taking a fault at supervisor level, away from TVBASE (01 R32). -/
theorem takeTrap_supervisor {s : State} {c : Nat} {x : Ctx} (f : FaultInfo) (w : Word32) (h : x.level = .supervisor) (hp : x.pc ≠ x.tvbase) :
    takeTrap s c x f w =
      (s.fails c).setCtx c { x with trappc := x.pc, trapinfo := trapInfo f w, trapaddr := f.addr, pc := x.tvbase, st := .idle, got := [],
                                     granted := [], mark := none } := by
  unfold takeTrap
  simp [h, hp]

/-- Taking a fault at user level (13 R311). -/
theorem takeTrap_user {s : State} {c : Nat} {x : Ctx} (f : FaultInfo) (w : Word32) (h : x.level = .user) :
    takeTrap s c x f w = (s.fails c).dispatch c x f w false := by
  unfold takeTrap
  simp [h]
  rfl

end Sys2Proof.Machine
end

