-- ==== Sys2Proof/Laws/Canonical.lean ====
section
/-! SUPPORT. The shared operations keep memory's canonical form: one lemma for each, which a proof about a step cites. Those that answer a pair are
stated of the state they answer. -/
namespace Sys2Proof.Machine

@[simp] theorem waitAt_mem (s : State) (me : Option Waiter) (l : Nat) : (s.waitAt me l).mem = s.mem :=
  (State.SameBut.waitAt s me l).mem

theorem ownLine_mem {s t : State} {me : Option Waiter} {l : Nat} {b : Bool} (e : s.ownLine me l = (t, b)) : t.mem = s.mem := by
  unfold State.ownLine at e; grind [waitAt_mem]

theorem ownLine_mem' (s : State) (me : Option Waiter) (l : Nat) : (s.ownLine me l).1.mem = s.mem := ownLine_mem rfl

theorem ownLines_mem' (me : Option Waiter) (ls : List Nat) (s : State) : (s.ownLines me ls).1.mem = s.mem := by
  induction ls generalizing s with
  | nil => rfl
  | cons l ls ih => unfold State.ownLines; simp only [ih, ownLine_mem']

theorem ownLines_mem {s t : State} {me : Option Waiter} {ls : List Nat} {b : Bool} (e : s.ownLines me ls = (t, b)) : t.mem = s.mem := by
  have := ownLines_mem' me ls s; rw [e] at this; exact this

theorem readLines_mem' (me : Option Waiter) (ls : List Nat) (s : State) : (s.readLines me ls).1.mem = s.mem := by
  induction ls generalizing s with
  | nil => rfl
  | cons l ls ih => unfold State.readLines State.readLine; simp only [ih]; split <;> simp

/-- An entry's effect keeps memory's form. -/
theorem memWf_applyOp {s : State} (a : Nat) (op : PathOp) (h : memWf s.mem = true) : memWf (s.applyOp a op).mem = true := by
  unfold State.applyOp; cases op <;> exact memWf_poke _ _ h

theorem perform_wf {s t : State} {n : Nat} {p : PathEntry} {b : Bool} (e : s.perform n p = (t, b)) (h : memWf s.mem = true) :
    memWf t.mem = true := by
  unfold State.perform at e; grind [→ ownLine_mem, memWf_applyOp, State.logFabric_mem]

theorem drainPath_wf (n : Nat) (want : PathEntry → Bool) (l : List PathEntry) (stuck : List Nat) (s : State) (h : memWf s.mem = true) :
    memWf (drainPath n want l stuck s).1.mem = true := by
  induction l generalizing s stuck with
  | nil => exact h
  | cons e l ih => unfold drainPath; grind [→ perform_wf]

theorem memWf_drain {s : State} (n : Nat) (want : PathEntry → Bool) (h : memWf s.mem = true) : memWf (s.drain n want).1.mem = true :=
  by unfold State.drain; grind [drainPath_wf, State.setCore_mem]

theorem memWf_release {s : State} (n : Nat) (sc : Option Scope) (h : memWf s.mem = true) : memWf (s.release n sc).1.mem = true := by
  unfold State.release
  split
  · exact h
  · split
    · exact memWf_drain _ _ h
    · exact h

theorem release_wf {s t : State} {n : Nat} {sc : Option Scope} {b : Bool} (e : s.release n sc = (t, b)) (h : memWf s.mem = true) :
    memWf t.mem = true := by have := memWf_release n sc h; rwa [e] at this

theorem memWf_reach {s : State} (core : Nat) (me : Option Waiter) (writes : Bool) (pa n : Nat) (h : memWf s.mem = true) :
    memWf (s.reach core me writes pa n).1.mem = true := by
  unfold State.reach; grind [memWf_drain, ownLines_mem', readLines_mem']

theorem reach_wf {s t : State} {core : Nat} {me : Option Waiter} {writes : Bool} {pa n : Nat} {b : Bool}
    (e : s.reach core me writes pa n = (t, b)) (h : memWf s.mem = true) : memWf t.mem = true := by
  have := memWf_reach core me writes pa n h; rwa [e] at this

@[simp] theorem forget_mem (s : State) (core pa n : Nat) : (s.forget core pa n).mem = s.mem := by
  unfold State.forget State.l1dForget; (repeat' split) <;> rfl

@[simp] theorem forgetFor_mem (s : State) (w : Who) (pa n : Nat) : (s.forgetFor w pa n).mem = s.mem := by
  unfold State.forgetFor; split <;> simp

@[simp] theorem l1dAdd_mem (s : State) (n l : Nat) (v : BitVec 512) : (s.l1dAdd n l v).mem = s.mem := by
  unfold State.l1dAdd State.usedIf; split <;> rfl

@[simp] theorem dropWaits_mem (s : State) (c : Nat) : (s.dropWaits c).mem = s.mem := rfl

@[simp] theorem dropToken_mem (s : State) (n c : Nat) : (s.dropToken n c).mem = s.mem := by
  unfold State.dropToken; split <;> rfl

theorem loadPart_wf {s t : State} {core : Nat} {me : Option Waiter} {fresh : Bool} {pa n : Nat} {r : Part}
    (e : s.loadPart core me fresh pa n = (t, r)) (h : memWf s.mem = true) : memWf t.mem = true := by
  unfold State.loadPart at e; grind [→ reach_wf, State.count_mem, forget_mem, l1dAdd_mem]

theorem memWf_loadPart {s : State} (core : Nat) (me : Option Waiter) (fresh : Bool) (pa n : Nat) (h : memWf s.mem = true) :
    memWf (s.loadPart core me fresh pa n).1.mem = true := loadPart_wf rfl h

theorem loadGot_wf {s t : State} {core : Nat} {me : Option Waiter} {fresh : Bool} {got : List (Nat × List Byte)} {pa n : Nat} {r : Part}
    (e : s.loadGot core me fresh got pa n = (t, r)) (h : memWf s.mem = true) : memWf t.mem = true := by
  unfold State.loadGot at e; grind [→ loadPart_wf]

theorem loadParts_wf {s t : State} {core : Nat} {me : Option Waiter} {fresh : Bool} {got : List (Nat × List Byte)} {ps : List (Nat × Nat)}
    {r : Got} (e : s.loadParts core me fresh got ps = (t, r)) (h : memWf s.mem = true) : memWf t.mem = true := by
  unfold State.loadParts at e; grind [→ loadPart_wf, → loadGot_wf]

@[simp] theorem send_mem (s : State) (r : Nat) (u p : Bool) (pa : Nat) (k : DxlKind) : (s.send r u p pa k).mem = s.mem := rfl
@[simp] theorem enterPath_mem (s : State) (n : Nat) (e : PathEntry) : (s.enterPath n e).mem = s.mem := rfl
@[simp] theorem enterToken_mem (s : State) (c n pa r : Nat) : (s.enterToken c n pa r).mem = s.mem := by
  unfold State.enterToken; split <;> rfl

theorem memWf_storePart {s : State} (w : Who) (core pa : Nat) (op : PathOp) (h : memWf s.mem = true) :
    memWf (s.storePart w core pa op).1.mem = true := by
  unfold State.storePart; grind [memWf_applyOp, send_mem, enterPath_mem, enterToken_mem]

theorem memWf_storeParts {s : State} (w : Who) (core : Nat) (ps : List (Nat × PathOp)) (h : memWf s.mem = true) :
    memWf (s.storeParts w core ps).1.mem = true := by
  induction ps generalizing s with
  | nil => exact h
  | cons p l ih => unfold State.storeParts; exact ih (memWf_storePart _ _ _ _ h)

theorem storeParts_wf {s t : State} {w : Who} {core : Nat} {ps : List (Nat × PathOp)} {b : Bool} (e : s.storeParts w core ps = (t, b))
    (h : memWf s.mem = true) : memWf t.mem = true := by have := memWf_storeParts w core ps h; rwa [e] at this

theorem xlate_wf {s t : State} {w : Who} {need : Need} {want : Place → Bool} {va : Word} {r : Res Nat} (e : s.xlate w need want va = (t, r))
    (h : memWf s.mem = true) : memWf t.mem = true := by rw [(State.SameBut.xlate e).mem]; exact h

theorem checkPart_wf {s t : State} {w : Who} {need : Need} {want : Place → Bool} {va : Word} {n : Nat} {r : Res Nat}
    (e : s.checkPart w need want va n = (t, r)) (h : memWf s.mem = true) : memWf t.mem = true := by
  rw [(State.SameBut.checkPart e).mem]; exact h

theorem checkAccess_wf {s t : State} {w : Who} {need : Need} {want : Place → Bool} {va : Word} {n : Nat} {r : Res (List (Nat × Nat))}
    (e : s.checkAccess w need want va n = (t, r)) (h : memWf s.mem = true) : memWf t.mem = true := by
  rw [(State.SameBut.checkAccess e).mem]; exact h

theorem checkLines_wf {s t : State} {w : Who} {need : Need} {want : Place → Bool} {fuel : Nat} {va : Word} {n : Nat}
    {r : Res (List (Nat × Nat))} (e : s.checkLines w need want fuel va n = (t, r)) (h : memWf s.mem = true) : memWf t.mem = true := by
  rw [(State.SameBut.checkLines e).mem]; exact h

theorem cell_wf {s t : State} {w : Who} {need : Need} {va : Word} {r : Res Nat} (e : s.cell w need va = (t, r)) (h : memWf s.mem = true) :
    memWf t.mem = true := by rw [(State.SameBut.cell e).mem]; exact h

theorem memWf_stepFree {s : State} (w : Who) (writes : Bool) (pa n : Nat) (h : memWf s.mem = true) :
    memWf (s.stepFree w writes pa n).1.mem = true := by
  unfold State.stepFree; grind [memWf_reach, ownLines_mem', readLines_mem']

theorem stepFree_wf {s t : State} {w : Who} {writes : Bool} {pa n : Nat} {b : Bool} (e : s.stepFree w writes pa n = (t, b))
    (h : memWf s.mem = true) : memWf t.mem = true := by have := memWf_stepFree w writes pa n h; rwa [e] at this

theorem memWf_stepsFree {s : State} (w : Who) (writes : Bool) (ps : List (Nat × Nat)) (h : memWf s.mem = true) :
    memWf (s.stepsFree w writes ps).1.mem = true := by
  induction ps generalizing s with
  | nil => exact h
  | cons p l ih => unfold State.stepsFree; rw [forgetFor_mem]; exact ih (memWf_stepFree _ _ _ _ h)

theorem stepsFree_wf {s t : State} {w : Who} {writes : Bool} {ps : List (Nat × Nat)} {b : Bool} (e : s.stepsFree w writes ps = (t, b))
    (h : memWf s.mem = true) : memWf t.mem = true := by have := memWf_stepsFree w writes ps h; rwa [e] at this

theorem qFind_wf {s t : State} {w : Who} {writes : Bool} {hd : Word} {r : Res Nat} (e : s.qFind w writes hd = (t, r)) (h : memWf s.mem = true) :
    memWf t.mem = true := by
  unfold State.qFind at e; grind [→ checkPart_wf, → stepFree_wf, waitAt_mem, forgetFor_mem]

theorem qRing_wf {s t : State} {w : Who} {writes : Bool} {va : Word} {n : Nat} {r : Res (List (Nat × Nat))}
    (e : s.qRing w writes va n = (t, r)) (h : memWf s.mem = true) : memWf t.mem = true := by
  unfold State.qRing at e; grind [→ checkAccess_wf, → stepsFree_wf]

theorem memWf_pokeParts {s : State} (ps : List (Nat × Nat)) (bs : List Byte) (h : memWf s.mem = true) :
    memWf (s.pokeParts ps bs).mem = true := by
  induction ps generalizing s bs with
  | nil => exact h
  | cons p l ih =>
    unfold State.pokeParts State.writeHere
    refine ih _ ?_
    (repeat' split) <;> first | exact h | exact memWf_poke _ _ h

theorem qAppend_wf {s t : State} {w : Who} {pa : Nat} {q : QDesc} {en : List Byte} {r : Res Unit}
    (e : s.qAppend w pa q en = (t, r)) (h : memWf s.mem = true) : memWf t.mem = true := by
  unfold State.qAppend at e; grind [→ qRing_wf, memWf_pokeParts, memWf_poke64]

theorem qAnswer_fst (r : State × Res Unit) (v : Nat) (p : Word) : (qAnswer r v p).1 = r.1 := by unfold qAnswer; split <;> rfl
theorem ovfRes_fst {α : Type} (r : State × Res α) : (ovfRes r).1 = r.1 := by unfold ovfRes; split <;> rfl

theorem memWf_qAppend {s : State} (w : Who) (pa : Nat) (q : QDesc) (en : List Byte) (h : memWf s.mem = true) :
    memWf (s.qAppend w pa q en).1.mem = true := qAppend_wf rfl h

theorem memWf_qFind {s : State} (w : Who) (writes : Bool) (hd : Word) (h : memWf s.mem = true) :
    memWf (s.qFind w writes hd).1.mem = true := qFind_wf rfl h

theorem ovfFind_wf {s t : State} {w : Who} {writes : Bool} {hd : Word} {r : Res Nat} (e : ovfRes (s.qFind w writes hd) = (t, r))
    (h : memWf s.mem = true) : memWf t.mem = true := by
  have h1 := ovfRes_fst (s.qFind w writes hd)
  rw [e] at h1
  rw [show t = (s.qFind w writes hd).1 from h1]
  exact memWf_qFind _ _ _ h

theorem enqAt_wf {s t : State} {w : Who} {hd : Word} {size : Nat} {en : List Byte} {pa : Nat} {r : Res QAns}
    (e : s.enqAt w hd size en pa = (t, r)) (h : memWf s.mem = true) : memWf t.mem = true := by
  have key : memWf (s.enqAt w hd size en pa).1.mem = true := by
    unfold State.enqAt
    dsimp only
    split
    · exact h
    · split
      · exact h
      · split
        · split
          · exact h
          · split
            · have := ovfFind_wf ‹_› h
              split
              · exact this
              · split
                · exact this
                · rw [qAnswer_fst, ovfRes_fst]; exact memWf_qAppend _ _ _ _ this
            · exact ovfFind_wf ‹_› h
            · exact ovfFind_wf ‹_› h
        · split
          · exact h
          · rw [qAnswer_fst]; exact memWf_qAppend _ _ _ _ h
  rwa [e] at key

theorem enqHere_wf {s t : State} {w : Who} {hd : Word} {size : Nat} {en : List Byte} {r : Res QAns}
    (e : s.enqHere w hd size en = (t, r)) (h : memWf s.mem = true) : memWf t.mem = true := by
  unfold State.enqHere at e; grind [→ qFind_wf, → release_wf, → enqAt_wf]

@[simp] theorem ringsDone_mem (s : State) (me : Option Waiter) : (s.ringsDone me).mem = s.mem := rfl
@[simp] theorem dropPlaces_mem (s : State) (me : Option Waiter) : (s.dropPlaces me).mem = s.mem := rfl
@[simp] theorem lockLines_mem (s : State) (me : Option Waiter) (ls : List Nat) : (s.lockLines me ls).mem = s.mem := by
  unfold State.lockLines; split <;> rfl

theorem enq_wf {s t : State} {w : Who} {hd : Word} {size : Nat} {en : List Byte} {r : Res QAns}
    (e : s.enq w hd size en = (t, r)) (h : memWf s.mem = true) : memWf t.mem = true := by
  unfold State.enq at e; grind [→ enqHere_wf, ringsDone_mem, lockLines_mem, send_mem]

theorem deq_wf {s t : State} {w : Who} {got : List (Nat × List Byte)} {hd : Word} {size : Nat} {take : Bool} {r : Res DeqAns}
    (e : s.deq w got hd size take = (t, r)) (h : memWf s.mem = true) : memWf t.mem = true := by
  unfold State.deq at e; grind [→ qFind_wf, → qRing_wf, memWf_poke64]

theorem memWf_answerLdf {s : State} (v : Word) (q : Deferral) (h : memWf s.mem = true) : memWf (s.answerLdf v q).mem = true := by
  unfold State.answerLdf; grind [memWf_writeReg, State.wake_mem, State.acquire_mem]

theorem memWf_answerGwait {s : State} (v : Word) (q : Deferral) (h : memWf s.mem = true) : memWf (s.answerGwait v q).mem = true := by
  unfold State.answerGwait; grind [memWf_writeReg, State.wake_mem, State.acquire_mem]

/-- A fold of operations that each keep the form keeps it. -/
theorem memWf_foldl {α : Type} {f : State → α → State} (hf : ∀ s a, memWf s.mem = true → memWf (f s a).mem = true) (l : List α) {s : State}
    (h : memWf s.mem = true) : memWf (l.foldl f s).mem = true := by
  induction l generalizing s with
  | nil => exact h
  | cons a l ih => exact ih (hf s a h)

theorem memWf_fill {s : State} (pa : Nat) (v : Word) (h : memWf s.mem = true) : memWf (s.fill pa v).1.mem = true := by
  unfold State.fill
  dsimp only
  split
  · exact h
  · exact memWf_foldl (fun t q ht => memWf_answerLdf v q ht) _ (memWf_poke64 _ _ (memWf_poke64 _ _ h))

theorem memWf_giveBits {s : State} (c : Nat) (b : Word) (h : memWf s.mem = true) : memWf (s.giveBits c b).mem = true := by
  unfold State.giveBits; grind [memWf_writeReg, State.wake_mem, State.acquire_mem, State.setCtx_mem]

theorem memWf_sendBits {s : State} (r c : Nat) (b : Word) (h : memWf s.mem = true) : memWf (s.sendBits r c b).mem = true := by
  unfold State.sendBits; grind [memWf_giveBits]

theorem memWf_flushFrom (l : List (Nat × List Byte)) (stuck : List Nat) {s : State} (h : memWf s.mem = true) :
    memWf (flushFrom l stuck s).mem = true := by
  induction l generalizing s stuck with
  | nil => exact h
  | cons p l ih => unfold flushFrom; grind [→ ownLine_mem, memWf_poke]

theorem memWf_flushWrites {s : State} (h : memWf s.mem = true) : memWf s.flushWrites.mem = true := by
  unfold State.flushWrites
  split
  · exact h
  · exact memWf_flushFrom _ _ h

theorem memWf_coWrite {s : State} (a : Nat) (bs : List Byte) (h : memWf s.mem = true) : memWf (s.coWrite a bs).mem = true :=
  memWf_flushWrites h

theorem memWf_setRegionState {s : State} (id : Nat) (st : RegionState) (h : memWf s.mem = true) : memWf (s.setRegionState id st).mem = true := by
  unfold State.setRegionState
  split
  · refine memWf_coWrite _ _ ?_
    dsimp only
    split <;> exact h
  · exact h

theorem memWf_use {s : State} (id : Nat) (f : Region → Region) (h : memWf s.mem = true) : memWf (s.use id f).mem = true := by
  unfold State.use
  split
  · refine memWf_foldl (fun t q ht => ?_) _ h
    exact memWf_coWrite _ _ (memWf_coWrite (s := t.setRegion (f q)) _ _ ht)
  · exact h

theorem endBudgetWaits_mem (s : State) (id : Nat) : (s.endBudgetWaits id).mem = s.mem := by
  unfold State.endBudgetWaits; split <;> rfl

theorem memWf_endBudgetWaits {s : State} (id : Nat) (h : memWf s.mem = true) : memWf (s.endBudgetWaits id).mem = true := by
  rw [endBudgetWaits_mem]; exact h

theorem tqPush_wf {s t : State} {k : Nat} {r : List Byte} (e : s.tqPush k r = some t) (h : memWf s.mem = true) : memWf t.mem = true := by
  unfold State.tqPush at e; grind [memWf_poke, State.setCluster_mem]

theorem memWf_tqPop {s : State} (k p : Nat) (h : memWf s.mem = true) : memWf (s.tqPop k p).mem = true := memWf_poke _ _ h

@[simp] theorem freeWs_mem (s : State) (n : Nat) (wp : Word) : (s.freeWs n wp).mem = s.mem := by unfold State.freeWs; split <;> rfl
@[simp] theorem takeWs_mem (s : State) (n : Nat) (wp : Word) : (s.takeWs n wp).mem = s.mem := by unfold State.takeWs; split <;> rfl

theorem memWf_unbind {s : State} (c : Nat) (h : memWf s.mem = true) : memWf (s.unbind c).mem = true := by
  unfold State.unbind; split
  · refine memWf_use _ _ ?_
    rw [State.dropCtx_mem, dropToken_mem, ringsDone_mem, dropWaits_mem]
    change memWf (s.giveUp c).mem = true
    rwa [State.giveUp_mem]
  · exact h

theorem memWf_startTimers {s : State} (k : Nat) (h : memWf s.mem = true) : memWf (s.startTimers k).mem = true := by
  unfold State.startTimers
  refine memWf_foldl (fun u t hu => ?_) _ h
  split
  · exact memWf_poke _ _ hu
  · exact hu

/-- A fold of operations that leave memory alone leaves it alone. -/
theorem foldl_mem {α : Type} {f : State → α → State} (hf : ∀ s a, (f s a).mem = s.mem) (l : List α) (s : State) : (l.foldl f s).mem = s.mem := by
  induction l generalizing s with
  | nil => rfl
  | cons a l ih => rw [List.foldl_cons, ih, hf]

@[simp] theorem freezeCrew_mem (s : State) (k : Nat) : (s.freezeCrew k).mem = s.mem := by
  unfold State.freezeCrew
  exact foldl_mem (fun t c => by simp) _ s

theorem memWf_thawCrew {s : State} (k : Nat) (h : memWf s.mem = true) : memWf (s.thawCrew k).mem = true := by
  unfold State.thawCrew
  split
  · dsimp only
    have hm := foldl_mem (f := fun (t : State) c => t.modCtx c (fun x => { x with held := false })) (fun t c => by simp) (s.boundIn k) s
    split
    · rwa [State.setCluster_mem, hm]
    · refine memWf_startTimers k ?_
      rwa [State.setCluster_mem, hm]
  · exact h

theorem memWf_haltMx {s : State} (k : Nat) (u : MxUnit) (b : Bool) (h : memWf s.mem = true) : memWf (s.haltMx k u b).mem = true := by
  unfold State.haltMx
  refine memWf_foldl (fun t q ht => ?_) _ h
  dsimp only
  repeat' split
  all_goals first
    | exact ht
    | exact memWf_writeReg _ _ _ ht
    | (rw [State.wake_mem]; exact memWf_writeReg _ _ _ ht)

theorem memWf_releaseSpan {s : State} (p : Span) (h : memWf s.mem = true) : memWf (s.releaseSpan p).1.mem = true := by
  unfold State.releaseSpan
  have key : ∀ (l : List Nat) (a : State × Bool), memWf a.1.mem = true → memWf (l.foldl
    (fun acc n =>
      if (acc.1.core n).path.isEmpty then acc
      else
        let r := acc.1.drain n (fun _ => true)
        (r.1, acc.2 && r.2)) a).1.mem = true := by
    intro l
    induction l with
    | nil => exact fun a ha => ha
    | cons n l ih =>
      intro a ha
      rw [List.foldl_cons]
      refine ih _ ?_
      dsimp only
      split
      · exact ha
      · exact memWf_drain _ _ ha
  exact key _ _ h

theorem releaseSpan_wf {s t : State} {p : Span} {b : Bool} (e : s.releaseSpan p = (t, b)) (h : memWf s.mem = true) : memWf t.mem = true := by
  have := memWf_releaseSpan p h; rwa [e] at this

theorem fill_wf {s t : State} {pa n : Nat} {v : Word} (e : s.fill pa v = (t, n)) (h : memWf s.mem = true) : memWf t.mem = true := by
  have := memWf_fill pa v h; rwa [e] at this

theorem storeDone_wf {s t : State} {p : Span} {b : Bool} (e : s.storeDone p = (t, b)) (h : memWf s.mem = true) : memWf t.mem = true := by
  unfold State.storeDone at e; grind [→ cell_wf, → ownLine_mem, → fill_wf, State.logDevice_mem, dropPlaces_mem]

@[simp] theorem sweepSpans_mem (s : State) : s.sweepSpans.mem = s.mem := rfl

theorem memWf_retireSpan {s : State} (p : Span) (h : memWf s.mem = true) : memWf (s.retireSpan p).mem = true := by
  unfold State.retireSpan; grind [→ releaseSpan_wf, → storeDone_wf, sweepSpans_mem, State.setSpan_mem]

@[simp] theorem dropParked_mem (s : State) (k : Nat) : (s.dropParked k).mem = s.mem := foldl_mem (fun t p => by simp) _ _

theorem memWf_retireCrew {s : State} (k : Nat) (h : memWf s.mem = true) : memWf (s.retireCrew k).mem = true := by
  unfold State.retireCrew; grind [memWf_retireSpan, dropParked_mem, State.setSpan_mem, State.setCluster_mem]

theorem memWf_releaseCrew {s : State} (k : Nat) (h : memWf s.mem = true) : memWf (s.releaseCrew k).mem = true := by
  unfold State.releaseCrew
  split
  · refine memWf_retireCrew k ?_
    have h1 := memWf_foldl (f := fun t c => match State.ctx? t c with
      | some x => (t.freeWs (coreOf c) x.home).unbind c
      | none => t) (fun t c ht => by
        split
        · exact memWf_unbind _ (by rw [freeWs_mem]; exact ht)
        · exact ht) (s.boundIn k) h
    have h2 := memWf_haltMx k .mx1 false (memWf_haltMx k .mx0 false h1)
    split
    · exact h2
    · exact h2
  · exact h

theorem memWf_dropSaved {s : State} (id : Nat) (h : memWf s.mem = true) : memWf (s.dropSaved id).mem = true := by
  unfold State.dropSaved
  refine memWf_foldl (fun t sc ht => ?_) _ h
  split
  · have h1 := memWf_endBudgetWaits id (memWf_use id (fun q => { q with usecl := q.usecl - 1, usectx := q.usectx - sc.ctxs.length }) ht)
    dsimp only
    split
    · exact memWf_retireSpan _ h1
    · exact h1
  · exact ht

theorem memWf_haltRegions {s : State} (id : Nat) (spare : Option Nat) (h : memWf s.mem = true) : memWf (s.haltRegions id spare).mem = true := by
  unfold State.haltRegions
  refine memWf_foldl (fun t r ht => ?_) _ h
  refine memWf_setRegionState _ _ (memWf_dropSaved _ (memWf_foldl (fun u k hu => ?_) _ ht))
  split
  · exact hu
  · exact memWf_releaseCrew k hu

theorem memWf_queueUnusable {s : State} (r : Nat) (k : Option Nat) (h : memWf s.mem = true) : memWf (s.queueUnusable r k).mem = true := by
  unfold State.queueUnusable
  rw [State.logDevice_mem]
  refine memWf_haltRegions _ _ ?_
  split
  · rw [freezeCrew_mem]; exact h
  · exact h

@[simp] theorem countRecord_mem (s : State) (k : Nat) : (s.countRecord k).mem = s.mem := by
  unfold State.countRecord; (repeat' split) <;> rfl

theorem memWf_leave {s : State} (c : Nat) (x : Ctx) (b : Bool) (h : memWf s.mem = true) : memWf (s.leave c x b).mem = true := by
  unfold State.leave
  refine memWf_unbind c ?_
  split
  · rw [freeWs_mem]; exact memWf_poke64 _ _ h
  · exact memWf_poke64 _ _ h

theorem faultEnq_wf {s t : State} {w : Who} {r : List Byte} {q : Enqueued} (e : s.faultEnq w r = (t, q)) (h : memWf s.mem = true) :
    memWf t.mem = true := by
  unfold State.faultEnq at e; grind [→ enq_wf]

@[simp] theorem queueHandler_mem (s : State) (k : Nat) (b : HandlerBind) : (s.queueHandler k b).mem = s.mem := rfl

theorem memWf_dispatch {s : State} (c : Nat) (x : Ctx) (f : FaultInfo) (w : Word32) (d : Bool) (h : memWf s.mem = true) :
    memWf (s.dispatch c x f w d).mem = true := by
  unfold State.dispatch
  grind [→ release_wf, → faultEnq_wf, State.modCtx_mem, memWf_leave, countRecord_mem, queueHandler_mem, memWf_queueUnusable]

/-- Taking a fault keeps memory's form. -/
theorem memWf_takeTrap {s : State} (c : Nat) (x : Ctx) (f : FaultInfo) (w : Word32) (h : memWf s.mem = true) :
    memWf (takeTrap s c x f w).mem = true := by
  have hf : memWf (s.fails c).mem = true := by rwa [State.fails_mem]
  unfold takeTrap
  split
  · exact hf
  · dsimp only
    split
    · rw [freezeCrew_mem]; exact memWf_dispatch _ _ _ _ _ hf
    · exact memWf_dispatch _ _ _ _ _ hf

/-- A body's end keeps memory's form. -/
def Exec.keeps : Exec → Prop
  | .ok s => memWf s.mem = true
  | .jump s _ => memWf s.mem = true
  | .busy s _ => memWf s.mem = true
  | .hold s _ => memWf s.mem = true
  | .gone s => memWf s.mem = true
  | .trap s _ => memWf s.mem = true

theorem memWf_finish (c : Nat) (x : Ctx) (w : Word32) (e : Exec) (h : e.keeps) : memWf (finish c x w e).mem = true := by
  cases e <;> simp only [finish, State.modCtx_mem] <;> first | exact h | exact memWf_takeTrap _ _ _ _ h

/-- A swarm instruction whose body keeps memory's form keeps it. -/
theorem runSwarm_wf {s t : State} {i : Instr} {feats : List Nat} {sup : Bool} {srcs : List Reg} {body : Nat → Ctx → State → Exec}
    (h : memWf s.mem = true) (hb : ∀ c x, (body c x s).keeps) (e : runSwarm i feats sup srcs body s = .next t) : memWf t.mem = true := by
  unfold runSwarm at e
  repeat' split at e
  all_goals first
    | (cases e; exact memWf_takeTrap _ _ _ _ h)
    | (cases e; exact memWf_finish _ _ _ _ (hb _ _))
    | cases e

theorem memWf_postRecord {s : State} (k : Nat) (r : FaultRecord) (u : Option MxUnit) (h : memWf s.mem = true) :
    memWf (s.postRecord k r u).mem = true := by
  unfold State.postRecord
  grind [→ faultEnq_wf, State.setCluster_mem, countRecord_mem, queueHandler_mem, memWf_queueUnusable]

/-- A fault of a matrix unit keeps memory's form. -/
theorem memWf_mxFault {s : State} (k : Nat) (u : MxUnit) (head : Nat) (f : FaultInfo) (h : memWf s.mem = true) :
    memWf (s.mxFault k u head f).mem = true := memWf_postRecord _ _ _ h

/-- An op of a matrix unit whose effect keeps memory's form keeps it. -/
theorem runMx_wf {s t : State} {i : Instr} {check : Nat → MxUnit → State → Option FaultInfo} {perform : Nat → MxUnit → Nat → State → State}
    (h : memWf s.mem = true) (hp : ∀ k u head, memWf (perform k u head s).mem = true) (e : runMx i check perform s = .next t) :
    memWf t.mem = true := by
  unfold runMx at e
  grind [memWf_mxFault]

end Sys2Proof.Machine
end

