-- ==== Sys2Proof/Laws/PerInstr.lean ====
section
/-! SUPPORT. Statements about every instruction as syntax, one lemma for each constructor. -/

/-- An instruction has at most one encoding: as a swarm word (chapter 04) or as an op of a bundle (chapter 09). -/
def Sys2Proof.Laws.OneEncoding.Statement (i : Sys2Proof.Instr) : Prop :=
  Sys2Proof.encodeFields i = none ∨ Sys2Proof.encodeOp i = none

theorem Sys2Proof.Laws.OneEncoding.add : ∀ x0 x1 x2, Sys2Proof.Laws.OneEncoding.Statement (.add x0 x1 x2) := fun _ _ _ => Or.inr rfl
theorem Sys2Proof.Laws.OneEncoding.sub : ∀ x0 x1 x2, Sys2Proof.Laws.OneEncoding.Statement (.sub x0 x1 x2) := fun _ _ _ => Or.inr rfl
theorem Sys2Proof.Laws.OneEncoding.mul : ∀ x0 x1 x2, Sys2Proof.Laws.OneEncoding.Statement (.mul x0 x1 x2) := fun _ _ _ => Or.inr rfl
theorem Sys2Proof.Laws.OneEncoding.mulh : ∀ x0 x1 x2, Sys2Proof.Laws.OneEncoding.Statement (.mulh x0 x1 x2) := fun _ _ _ => Or.inr rfl
theorem Sys2Proof.Laws.OneEncoding.mulhu : ∀ x0 x1 x2, Sys2Proof.Laws.OneEncoding.Statement (.mulhu x0 x1 x2) := fun _ _ _ => Or.inr rfl
theorem Sys2Proof.Laws.OneEncoding.div : ∀ x0 x1 x2, Sys2Proof.Laws.OneEncoding.Statement (.div x0 x1 x2) := fun _ _ _ => Or.inr rfl
theorem Sys2Proof.Laws.OneEncoding.divu : ∀ x0 x1 x2, Sys2Proof.Laws.OneEncoding.Statement (.divu x0 x1 x2) := fun _ _ _ => Or.inr rfl
theorem Sys2Proof.Laws.OneEncoding.rem : ∀ x0 x1 x2, Sys2Proof.Laws.OneEncoding.Statement (.rem x0 x1 x2) := fun _ _ _ => Or.inr rfl
theorem Sys2Proof.Laws.OneEncoding.remu : ∀ x0 x1 x2, Sys2Proof.Laws.OneEncoding.Statement (.remu x0 x1 x2) := fun _ _ _ => Or.inr rfl
theorem Sys2Proof.Laws.OneEncoding.and : ∀ x0 x1 x2, Sys2Proof.Laws.OneEncoding.Statement (.and x0 x1 x2) := fun _ _ _ => Or.inr rfl
theorem Sys2Proof.Laws.OneEncoding.or : ∀ x0 x1 x2, Sys2Proof.Laws.OneEncoding.Statement (.or x0 x1 x2) := fun _ _ _ => Or.inr rfl
theorem Sys2Proof.Laws.OneEncoding.xor : ∀ x0 x1 x2, Sys2Proof.Laws.OneEncoding.Statement (.xor x0 x1 x2) := fun _ _ _ => Or.inr rfl
theorem Sys2Proof.Laws.OneEncoding.shl : ∀ x0 x1 x2, Sys2Proof.Laws.OneEncoding.Statement (.shl x0 x1 x2) := fun _ _ _ => Or.inr rfl
theorem Sys2Proof.Laws.OneEncoding.shr : ∀ x0 x1 x2, Sys2Proof.Laws.OneEncoding.Statement (.shr x0 x1 x2) := fun _ _ _ => Or.inr rfl
theorem Sys2Proof.Laws.OneEncoding.sra : ∀ x0 x1 x2, Sys2Proof.Laws.OneEncoding.Statement (.sra x0 x1 x2) := fun _ _ _ => Or.inr rfl
theorem Sys2Proof.Laws.OneEncoding.rot : ∀ x0 x1 x2, Sys2Proof.Laws.OneEncoding.Statement (.rot x0 x1 x2) := fun _ _ _ => Or.inr rfl
theorem Sys2Proof.Laws.OneEncoding.clz : ∀ x0 x1, Sys2Proof.Laws.OneEncoding.Statement (.clz x0 x1) := fun _ _ => Or.inr rfl
theorem Sys2Proof.Laws.OneEncoding.ctz : ∀ x0 x1, Sys2Proof.Laws.OneEncoding.Statement (.ctz x0 x1) := fun _ _ => Or.inr rfl
theorem Sys2Proof.Laws.OneEncoding.popc : ∀ x0 x1, Sys2Proof.Laws.OneEncoding.Statement (.popc x0 x1) := fun _ _ => Or.inr rfl
theorem Sys2Proof.Laws.OneEncoding.min : ∀ x0 x1 x2, Sys2Proof.Laws.OneEncoding.Statement (.min x0 x1 x2) := fun _ _ _ => Or.inr rfl
theorem Sys2Proof.Laws.OneEncoding.max : ∀ x0 x1 x2, Sys2Proof.Laws.OneEncoding.Statement (.max x0 x1 x2) := fun _ _ _ => Or.inr rfl
theorem Sys2Proof.Laws.OneEncoding.minu : ∀ x0 x1 x2, Sys2Proof.Laws.OneEncoding.Statement (.minu x0 x1 x2) := fun _ _ _ => Or.inr rfl
theorem Sys2Proof.Laws.OneEncoding.maxu : ∀ x0 x1 x2, Sys2Proof.Laws.OneEncoding.Statement (.maxu x0 x1 x2) := fun _ _ _ => Or.inr rfl
theorem Sys2Proof.Laws.OneEncoding.slt : ∀ x0 x1 x2, Sys2Proof.Laws.OneEncoding.Statement (.slt x0 x1 x2) := fun _ _ _ => Or.inr rfl
theorem Sys2Proof.Laws.OneEncoding.sltu : ∀ x0 x1 x2, Sys2Proof.Laws.OneEncoding.Statement (.sltu x0 x1 x2) := fun _ _ _ => Or.inr rfl
theorem Sys2Proof.Laws.OneEncoding.sel : ∀ x0 x1 x2 x3, Sys2Proof.Laws.OneEncoding.Statement (.sel x0 x1 x2 x3) := fun _ _ _ _ => Or.inr rfl
theorem Sys2Proof.Laws.OneEncoding.hash : ∀ x0 x1 x2, Sys2Proof.Laws.OneEncoding.Statement (.hash x0 x1 x2) := fun _ _ _ => Or.inr rfl
theorem Sys2Proof.Laws.OneEncoding.crng : ∀ x0 x1 x2, Sys2Proof.Laws.OneEncoding.Statement (.crng x0 x1 x2) := fun _ _ _ => Or.inr rfl
theorem Sys2Proof.Laws.OneEncoding.loc : ∀ x0 x1 x2, Sys2Proof.Laws.OneEncoding.Statement (.loc x0 x1 x2) := fun _ _ _ => Or.inr rfl
theorem Sys2Proof.Laws.OneEncoding.peer : ∀ x0 x1 x2, Sys2Proof.Laws.OneEncoding.Statement (.peer x0 x1 x2) := fun _ _ _ => Or.inr rfl
theorem Sys2Proof.Laws.OneEncoding.peerWrap : ∀ x0 x1 x2, Sys2Proof.Laws.OneEncoding.Statement (.peerWrap x0 x1 x2) := fun _ _ _ => Or.inr rfl
theorem Sys2Proof.Laws.OneEncoding.peerLoc : ∀ x0 x1, Sys2Proof.Laws.OneEncoding.Statement (.peerLoc x0 x1) := fun _ _ => Or.inr rfl
theorem Sys2Proof.Laws.OneEncoding.jr : ∀ x0 x1, Sys2Proof.Laws.OneEncoding.Statement (.jr x0 x1) := fun _ _ => Or.inr rfl
theorem Sys2Proof.Laws.OneEncoding.swapws : ∀ x0 x1, Sys2Proof.Laws.OneEncoding.Statement (.swapws x0 x1) := fun _ _ => Or.inr rfl
theorem Sys2Proof.Laws.OneEncoding.addi : ∀ x0 x1 x2, Sys2Proof.Laws.OneEncoding.Statement (.addi x0 x1 x2) := fun _ _ _ => Or.inr rfl
theorem Sys2Proof.Laws.OneEncoding.andi : ∀ x0 x1 x2, Sys2Proof.Laws.OneEncoding.Statement (.andi x0 x1 x2) := fun _ _ _ => Or.inr rfl
theorem Sys2Proof.Laws.OneEncoding.ori : ∀ x0 x1 x2, Sys2Proof.Laws.OneEncoding.Statement (.ori x0 x1 x2) := fun _ _ _ => Or.inr rfl
theorem Sys2Proof.Laws.OneEncoding.xori : ∀ x0 x1 x2, Sys2Proof.Laws.OneEncoding.Statement (.xori x0 x1 x2) := fun _ _ _ => Or.inr rfl
theorem Sys2Proof.Laws.OneEncoding.slti : ∀ x0 x1 x2, Sys2Proof.Laws.OneEncoding.Statement (.slti x0 x1 x2) := fun _ _ _ => Or.inr rfl
theorem Sys2Proof.Laws.OneEncoding.ldhi : ∀ x0 x1, Sys2Proof.Laws.OneEncoding.Statement (.ldhi x0 x1) := fun _ _ => Or.inr rfl
theorem Sys2Proof.Laws.OneEncoding.addpc : ∀ x0 x1, Sys2Proof.Laws.OneEncoding.Statement (.addpc x0 x1) := fun _ _ => Or.inr rfl
theorem Sys2Proof.Laws.OneEncoding.shli : ∀ x0 x1 x2, Sys2Proof.Laws.OneEncoding.Statement (.shli x0 x1 x2) := fun _ _ _ => Or.inr rfl
theorem Sys2Proof.Laws.OneEncoding.shri : ∀ x0 x1 x2, Sys2Proof.Laws.OneEncoding.Statement (.shri x0 x1 x2) := fun _ _ _ => Or.inr rfl
theorem Sys2Proof.Laws.OneEncoding.srai : ∀ x0 x1 x2, Sys2Proof.Laws.OneEncoding.Statement (.srai x0 x1 x2) := fun _ _ _ => Or.inr rfl
theorem Sys2Proof.Laws.OneEncoding.roti : ∀ x0 x1 x2, Sys2Proof.Laws.OneEncoding.Statement (.roti x0 x1 x2) := fun _ _ _ => Or.inr rfl
theorem Sys2Proof.Laws.OneEncoding.bfx : ∀ x0 x1 x2 x3, Sys2Proof.Laws.OneEncoding.Statement (.bfx x0 x1 x2 x3) := fun _ _ _ _ => Or.inr rfl
theorem Sys2Proof.Laws.OneEncoding.bfi : ∀ x0 x1 x2 x3, Sys2Proof.Laws.OneEncoding.Statement (.bfi x0 x1 x2 x3) := fun _ _ _ _ => Or.inr rfl
theorem Sys2Proof.Laws.OneEncoding.beq : ∀ x0 x1 x2, Sys2Proof.Laws.OneEncoding.Statement (.beq x0 x1 x2) := fun _ _ _ => Or.inr rfl
theorem Sys2Proof.Laws.OneEncoding.bne : ∀ x0 x1 x2, Sys2Proof.Laws.OneEncoding.Statement (.bne x0 x1 x2) := fun _ _ _ => Or.inr rfl
theorem Sys2Proof.Laws.OneEncoding.blt : ∀ x0 x1 x2, Sys2Proof.Laws.OneEncoding.Statement (.blt x0 x1 x2) := fun _ _ _ => Or.inr rfl
theorem Sys2Proof.Laws.OneEncoding.bge : ∀ x0 x1 x2, Sys2Proof.Laws.OneEncoding.Statement (.bge x0 x1 x2) := fun _ _ _ => Or.inr rfl
theorem Sys2Proof.Laws.OneEncoding.bltu : ∀ x0 x1 x2, Sys2Proof.Laws.OneEncoding.Statement (.bltu x0 x1 x2) := fun _ _ _ => Or.inr rfl
theorem Sys2Proof.Laws.OneEncoding.bgeu : ∀ x0 x1 x2, Sys2Proof.Laws.OneEncoding.Statement (.bgeu x0 x1 x2) := fun _ _ _ => Or.inr rfl
theorem Sys2Proof.Laws.OneEncoding.jmp : ∀ x0, Sys2Proof.Laws.OneEncoding.Statement (.jmp x0) := fun _ => Or.inr rfl
theorem Sys2Proof.Laws.OneEncoding.call : ∀ x0, Sys2Proof.Laws.OneEncoding.Statement (.call x0) := fun _ => Or.inr rfl
theorem Sys2Proof.Laws.OneEncoding.lb : ∀ x0 x1 x2, Sys2Proof.Laws.OneEncoding.Statement (.lb x0 x1 x2) := fun _ _ _ => Or.inr rfl
theorem Sys2Proof.Laws.OneEncoding.lbu : ∀ x0 x1 x2, Sys2Proof.Laws.OneEncoding.Statement (.lbu x0 x1 x2) := fun _ _ _ => Or.inr rfl
theorem Sys2Proof.Laws.OneEncoding.lh : ∀ x0 x1 x2, Sys2Proof.Laws.OneEncoding.Statement (.lh x0 x1 x2) := fun _ _ _ => Or.inr rfl
theorem Sys2Proof.Laws.OneEncoding.lhu : ∀ x0 x1 x2, Sys2Proof.Laws.OneEncoding.Statement (.lhu x0 x1 x2) := fun _ _ _ => Or.inr rfl
theorem Sys2Proof.Laws.OneEncoding.lw : ∀ x0 x1 x2, Sys2Proof.Laws.OneEncoding.Statement (.lw x0 x1 x2) := fun _ _ _ => Or.inr rfl
theorem Sys2Proof.Laws.OneEncoding.lwu : ∀ x0 x1 x2, Sys2Proof.Laws.OneEncoding.Statement (.lwu x0 x1 x2) := fun _ _ _ => Or.inr rfl
theorem Sys2Proof.Laws.OneEncoding.ld : ∀ x0 x1 x2, Sys2Proof.Laws.OneEncoding.Statement (.ld x0 x1 x2) := fun _ _ _ => Or.inr rfl
theorem Sys2Proof.Laws.OneEncoding.lq : ∀ x0 x1 x2, Sys2Proof.Laws.OneEncoding.Statement (.lq x0 x1 x2) := fun _ _ _ => Or.inr rfl
theorem Sys2Proof.Laws.OneEncoding.sb : ∀ x0 x1 x2, Sys2Proof.Laws.OneEncoding.Statement (.sb x0 x1 x2) := fun _ _ _ => Or.inr rfl
theorem Sys2Proof.Laws.OneEncoding.sh : ∀ x0 x1 x2, Sys2Proof.Laws.OneEncoding.Statement (.sh x0 x1 x2) := fun _ _ _ => Or.inr rfl
theorem Sys2Proof.Laws.OneEncoding.sw : ∀ x0 x1 x2, Sys2Proof.Laws.OneEncoding.Statement (.sw x0 x1 x2) := fun _ _ _ => Or.inr rfl
theorem Sys2Proof.Laws.OneEncoding.sd : ∀ x0 x1 x2, Sys2Proof.Laws.OneEncoding.Statement (.sd x0 x1 x2) := fun _ _ _ => Or.inr rfl
theorem Sys2Proof.Laws.OneEncoding.sq : ∀ x0 x1 x2, Sys2Proof.Laws.OneEncoding.Statement (.sq x0 x1 x2) := fun _ _ _ => Or.inr rfl
theorem Sys2Proof.Laws.OneEncoding.pfl : ∀ x0 x1 x2, Sys2Proof.Laws.OneEncoding.Statement (.pfl x0 x1 x2) := fun _ _ _ => Or.inr rfl
theorem Sys2Proof.Laws.OneEncoding.lbit : ∀ x0 x1 x2 x3 x4, Sys2Proof.Laws.OneEncoding.Statement (.lbit x0 x1 x2 x3 x4) := fun _ _ _ _ _ => Or.inr rfl
theorem Sys2Proof.Laws.OneEncoding.sbit : ∀ x0 x1 x2 x3, Sys2Proof.Laws.OneEncoding.Statement (.sbit x0 x1 x2 x3) := fun _ _ _ _ => Or.inr rfl
theorem Sys2Proof.Laws.OneEncoding.memordLb : ∀ x0 x1 x2, Sys2Proof.Laws.OneEncoding.Statement (.memordLb x0 x1 x2) := fun _ _ _ => Or.inr rfl
theorem Sys2Proof.Laws.OneEncoding.memordLbu : ∀ x0 x1 x2, Sys2Proof.Laws.OneEncoding.Statement (.memordLbu x0 x1 x2) := fun _ _ _ => Or.inr rfl
theorem Sys2Proof.Laws.OneEncoding.memordLh : ∀ x0 x1 x2, Sys2Proof.Laws.OneEncoding.Statement (.memordLh x0 x1 x2) := fun _ _ _ => Or.inr rfl
theorem Sys2Proof.Laws.OneEncoding.memordLhu : ∀ x0 x1 x2, Sys2Proof.Laws.OneEncoding.Statement (.memordLhu x0 x1 x2) := fun _ _ _ => Or.inr rfl
theorem Sys2Proof.Laws.OneEncoding.memordLw : ∀ x0 x1 x2, Sys2Proof.Laws.OneEncoding.Statement (.memordLw x0 x1 x2) := fun _ _ _ => Or.inr rfl
theorem Sys2Proof.Laws.OneEncoding.memordLwu : ∀ x0 x1 x2, Sys2Proof.Laws.OneEncoding.Statement (.memordLwu x0 x1 x2) := fun _ _ _ => Or.inr rfl
theorem Sys2Proof.Laws.OneEncoding.memordLd : ∀ x0 x1 x2, Sys2Proof.Laws.OneEncoding.Statement (.memordLd x0 x1 x2) := fun _ _ _ => Or.inr rfl
theorem Sys2Proof.Laws.OneEncoding.memordLq : ∀ x0 x1 x2, Sys2Proof.Laws.OneEncoding.Statement (.memordLq x0 x1 x2) := fun _ _ _ => Or.inr rfl
theorem Sys2Proof.Laws.OneEncoding.memordSb : ∀ x0 x1 x2, Sys2Proof.Laws.OneEncoding.Statement (.memordSb x0 x1 x2) := fun _ _ _ => Or.inr rfl
theorem Sys2Proof.Laws.OneEncoding.memordSh : ∀ x0 x1 x2, Sys2Proof.Laws.OneEncoding.Statement (.memordSh x0 x1 x2) := fun _ _ _ => Or.inr rfl
theorem Sys2Proof.Laws.OneEncoding.memordSw : ∀ x0 x1 x2, Sys2Proof.Laws.OneEncoding.Statement (.memordSw x0 x1 x2) := fun _ _ _ => Or.inr rfl
theorem Sys2Proof.Laws.OneEncoding.memordSd : ∀ x0 x1 x2, Sys2Proof.Laws.OneEncoding.Statement (.memordSd x0 x1 x2) := fun _ _ _ => Or.inr rfl
theorem Sys2Proof.Laws.OneEncoding.memordSq : ∀ x0 x1 x2, Sys2Proof.Laws.OneEncoding.Statement (.memordSq x0 x1 x2) := fun _ _ _ => Or.inr rfl
theorem Sys2Proof.Laws.OneEncoding.amoAdd : ∀ x0 x1 x2 x3 x4 x5, Sys2Proof.Laws.OneEncoding.Statement (.amoAdd x0 x1 x2 x3 x4 x5) := fun _ _ _ _ _ _ => Or.inr rfl
theorem Sys2Proof.Laws.OneEncoding.amoAnd : ∀ x0 x1 x2 x3 x4 x5, Sys2Proof.Laws.OneEncoding.Statement (.amoAnd x0 x1 x2 x3 x4 x5) := fun _ _ _ _ _ _ => Or.inr rfl
theorem Sys2Proof.Laws.OneEncoding.amoOr : ∀ x0 x1 x2 x3 x4 x5, Sys2Proof.Laws.OneEncoding.Statement (.amoOr x0 x1 x2 x3 x4 x5) := fun _ _ _ _ _ _ => Or.inr rfl
theorem Sys2Proof.Laws.OneEncoding.amoXor : ∀ x0 x1 x2 x3 x4 x5, Sys2Proof.Laws.OneEncoding.Statement (.amoXor x0 x1 x2 x3 x4 x5) := fun _ _ _ _ _ _ => Or.inr rfl
theorem Sys2Proof.Laws.OneEncoding.amoMin : ∀ x0 x1 x2 x3 x4 x5, Sys2Proof.Laws.OneEncoding.Statement (.amoMin x0 x1 x2 x3 x4 x5) := fun _ _ _ _ _ _ => Or.inr rfl
theorem Sys2Proof.Laws.OneEncoding.amoMax : ∀ x0 x1 x2 x3 x4 x5, Sys2Proof.Laws.OneEncoding.Statement (.amoMax x0 x1 x2 x3 x4 x5) := fun _ _ _ _ _ _ => Or.inr rfl
theorem Sys2Proof.Laws.OneEncoding.amoMinu : ∀ x0 x1 x2 x3 x4 x5, Sys2Proof.Laws.OneEncoding.Statement (.amoMinu x0 x1 x2 x3 x4 x5) := fun _ _ _ _ _ _ => Or.inr rfl
theorem Sys2Proof.Laws.OneEncoding.amoMaxu : ∀ x0 x1 x2 x3 x4 x5, Sys2Proof.Laws.OneEncoding.Statement (.amoMaxu x0 x1 x2 x3 x4 x5) := fun _ _ _ _ _ _ => Or.inr rfl
theorem Sys2Proof.Laws.OneEncoding.amoSwp : ∀ x0 x1 x2 x3 x4 x5, Sys2Proof.Laws.OneEncoding.Statement (.amoSwp x0 x1 x2 x3 x4 x5) := fun _ _ _ _ _ _ => Or.inr rfl
theorem Sys2Proof.Laws.OneEncoding.amoFadd : ∀ x0 x1 x2 x3 x4 x5, Sys2Proof.Laws.OneEncoding.Statement (.amoFadd x0 x1 x2 x3 x4 x5) := fun _ _ _ _ _ _ => Or.inr rfl
theorem Sys2Proof.Laws.OneEncoding.amocas : ∀ x0 x1 x2 x3 x4 x5, Sys2Proof.Laws.OneEncoding.Statement (.amocas x0 x1 x2 x3 x4 x5) := fun _ _ _ _ _ _ => Or.inr rfl
theorem Sys2Proof.Laws.OneEncoding.fence : ∀ x0 x1, Sys2Proof.Laws.OneEncoding.Statement (.fence x0 x1) := fun _ _ => Or.inr rfl
theorem Sys2Proof.Laws.OneEncoding.icsync : ∀ x0, Sys2Proof.Laws.OneEncoding.Statement (.icsync x0) := fun _ => Or.inr rfl
theorem Sys2Proof.Laws.OneEncoding.fadd : ∀ x0 x1 x2 x3 x4, Sys2Proof.Laws.OneEncoding.Statement (.fadd x0 x1 x2 x3 x4) := fun _ _ _ _ _ => Or.inr rfl
theorem Sys2Proof.Laws.OneEncoding.fsub : ∀ x0 x1 x2 x3 x4, Sys2Proof.Laws.OneEncoding.Statement (.fsub x0 x1 x2 x3 x4) := fun _ _ _ _ _ => Or.inr rfl
theorem Sys2Proof.Laws.OneEncoding.fmul : ∀ x0 x1 x2 x3 x4, Sys2Proof.Laws.OneEncoding.Statement (.fmul x0 x1 x2 x3 x4) := fun _ _ _ _ _ => Or.inr rfl
theorem Sys2Proof.Laws.OneEncoding.fma : ∀ x0 x1 x2 x3 x4, Sys2Proof.Laws.OneEncoding.Statement (.fma x0 x1 x2 x3 x4) := fun _ _ _ _ _ => Or.inr rfl
theorem Sys2Proof.Laws.OneEncoding.fmin : ∀ x0 x1 x2 x3, Sys2Proof.Laws.OneEncoding.Statement (.fmin x0 x1 x2 x3) := fun _ _ _ _ => Or.inr rfl
theorem Sys2Proof.Laws.OneEncoding.fmax : ∀ x0 x1 x2 x3, Sys2Proof.Laws.OneEncoding.Statement (.fmax x0 x1 x2 x3) := fun _ _ _ _ => Or.inr rfl
theorem Sys2Proof.Laws.OneEncoding.fcmp : ∀ x0 x1 x2 x3 x4, Sys2Proof.Laws.OneEncoding.Statement (.fcmp x0 x1 x2 x3 x4) := fun _ _ _ _ _ => Or.inr rfl
theorem Sys2Proof.Laws.OneEncoding.fcvt : ∀ x0 x1 x2 x3, Sys2Proof.Laws.OneEncoding.Statement (.fcvt x0 x1 x2 x3) := fun _ _ _ _ => Or.inr rfl
theorem Sys2Proof.Laws.OneEncoding.fsgn : ∀ x0 x1 x2 x3 x4, Sys2Proof.Laws.OneEncoding.Statement (.fsgn x0 x1 x2 x3 x4) := fun _ _ _ _ _ => Or.inr rfl
theorem Sys2Proof.Laws.OneEncoding.fdiv : ∀ x0 x1 x2 x3 x4, Sys2Proof.Laws.OneEncoding.Statement (.fdiv x0 x1 x2 x3 x4) := fun _ _ _ _ _ => Or.inr rfl
theorem Sys2Proof.Laws.OneEncoding.fsqrt : ∀ x0 x1 x2 x3, Sys2Proof.Laws.OneEncoding.Statement (.fsqrt x0 x1 x2 x3) := fun _ _ _ _ => Or.inr rfl
theorem Sys2Proof.Laws.OneEncoding.frcp : ∀ x0 x1 x2 x3, Sys2Proof.Laws.OneEncoding.Statement (.frcp x0 x1 x2 x3) := fun _ _ _ _ => Or.inr rfl
theorem Sys2Proof.Laws.OneEncoding.frsq : ∀ x0 x1 x2 x3, Sys2Proof.Laws.OneEncoding.Statement (.frsq x0 x1 x2 x3) := fun _ _ _ _ => Or.inr rfl
theorem Sys2Proof.Laws.OneEncoding.fexp2 : ∀ x0 x1 x2 x3, Sys2Proof.Laws.OneEncoding.Statement (.fexp2 x0 x1 x2 x3) := fun _ _ _ _ => Or.inr rfl
theorem Sys2Proof.Laws.OneEncoding.flog2 : ∀ x0 x1 x2 x3, Sys2Proof.Laws.OneEncoding.Statement (.flog2 x0 x1 x2 x3) := fun _ _ _ _ => Or.inr rfl
theorem Sys2Proof.Laws.OneEncoding.padd : ∀ x0 x1 x2 x3 x4 x5, Sys2Proof.Laws.OneEncoding.Statement (.padd x0 x1 x2 x3 x4 x5) := fun _ _ _ _ _ _ => Or.inr rfl
theorem Sys2Proof.Laws.OneEncoding.psub : ∀ x0 x1 x2 x3 x4 x5, Sys2Proof.Laws.OneEncoding.Statement (.psub x0 x1 x2 x3 x4 x5) := fun _ _ _ _ _ _ => Or.inr rfl
theorem Sys2Proof.Laws.OneEncoding.pmul : ∀ x0 x1 x2 x3 x4 x5, Sys2Proof.Laws.OneEncoding.Statement (.pmul x0 x1 x2 x3 x4 x5) := fun _ _ _ _ _ _ => Or.inr rfl
theorem Sys2Proof.Laws.OneEncoding.pfma : ∀ x0 x1 x2 x3 x4 x5, Sys2Proof.Laws.OneEncoding.Statement (.pfma x0 x1 x2 x3 x4 x5) := fun _ _ _ _ _ _ => Or.inr rfl
theorem Sys2Proof.Laws.OneEncoding.pmin : ∀ x0 x1 x2 x3 x4, Sys2Proof.Laws.OneEncoding.Statement (.pmin x0 x1 x2 x3 x4) := fun _ _ _ _ _ => Or.inr rfl
theorem Sys2Proof.Laws.OneEncoding.pmax : ∀ x0 x1 x2 x3 x4, Sys2Proof.Laws.OneEncoding.Statement (.pmax x0 x1 x2 x3 x4) := fun _ _ _ _ _ => Or.inr rfl
theorem Sys2Proof.Laws.OneEncoding.pdot : ∀ x0 x1 x2 x3 x4, Sys2Proof.Laws.OneEncoding.Statement (.pdot x0 x1 x2 x3 x4) := fun _ _ _ _ _ => Or.inr rfl
theorem Sys2Proof.Laws.OneEncoding.pcvt : ∀ x0 x1 x2 x3, Sys2Proof.Laws.OneEncoding.Statement (.pcvt x0 x1 x2 x3) := fun _ _ _ _ => Or.inr rfl
theorem Sys2Proof.Laws.OneEncoding.pshuf : ∀ x0 x1 x2, Sys2Proof.Laws.OneEncoding.Statement (.pshuf x0 x1 x2) := fun _ _ _ => Or.inr rfl
theorem Sys2Proof.Laws.OneEncoding.pcmp : ∀ x0 x1 x2 x3 x4, Sys2Proof.Laws.OneEncoding.Statement (.pcmp x0 x1 x2 x3 x4) := fun _ _ _ _ _ => Or.inr rfl
theorem Sys2Proof.Laws.OneEncoding.lacz : ∀ x0, Sys2Proof.Laws.OneEncoding.Statement (.lacz x0) := fun _ => Or.inr rfl
theorem Sys2Proof.Laws.OneEncoding.laca : ∀ x0 x1 x2, Sys2Proof.Laws.OneEncoding.Statement (.laca x0 x1 x2) := fun _ _ _ => Or.inr rfl
theorem Sys2Proof.Laws.OneEncoding.lacr : ∀ x0 x1, Sys2Proof.Laws.OneEncoding.Statement (.lacr x0 x1) := fun _ _ => Or.inr rfl
theorem Sys2Proof.Laws.OneEncoding.topen : ∀ x0 x1 x2, Sys2Proof.Laws.OneEncoding.Statement (.topen x0 x1 x2) := fun _ _ _ => Or.inr rfl
theorem Sys2Proof.Laws.OneEncoding.trow : ∀ x0 x1 x2 x3, Sys2Proof.Laws.OneEncoding.Statement (.trow x0 x1 x2 x3) := fun _ _ _ _ => Or.inr rfl
theorem Sys2Proof.Laws.OneEncoding.telm : ∀ x0 x1 x2 x3, Sys2Proof.Laws.OneEncoding.Statement (.telm x0 x1 x2 x3) := fun _ _ _ _ => Or.inr rfl
theorem Sys2Proof.Laws.OneEncoding.tfill : ∀ x0 x1 x2, Sys2Proof.Laws.OneEncoding.Statement (.tfill x0 x1 x2) := fun _ _ _ => Or.inr rfl
theorem Sys2Proof.Laws.OneEncoding.seal : ∀ x0 x1 x2, Sys2Proof.Laws.OneEncoding.Statement (.seal x0 x1 x2) := fun _ _ _ => Or.inr rfl
theorem Sys2Proof.Laws.OneEncoding.tfree : ∀ x0, Sys2Proof.Laws.OneEncoding.Statement (.tfree x0) := fun _ => Or.inr rfl
theorem Sys2Proof.Laws.OneEncoding.thdr : ∀ x0 x1 x2, Sys2Proof.Laws.OneEncoding.Statement (.thdr x0 x1 x2) := fun _ _ _ => Or.inr rfl
theorem Sys2Proof.Laws.OneEncoding.xcp : ∀ x0 x1 x2, Sys2Proof.Laws.OneEncoding.Statement (.xcp x0 x1 x2) := fun _ _ _ => Or.inr rfl
theorem Sys2Proof.Laws.OneEncoding.wdq : ∀ x0 x1 x2, Sys2Proof.Laws.OneEncoding.Statement (.wdq x0 x1 x2) := fun _ _ _ => Or.inr rfl
theorem Sys2Proof.Laws.OneEncoding.ctwait : ∀ x0 x1, Sys2Proof.Laws.OneEncoding.Statement (.ctwait x0 x1) := fun _ _ => Or.inr rfl
theorem Sys2Proof.Laws.OneEncoding.ctany : ∀ x0 x1, Sys2Proof.Laws.OneEncoding.Statement (.ctany x0 x1) := fun _ _ => Or.inr rfl
theorem Sys2Proof.Laws.OneEncoding.ctff : ∀ x0 x1, Sys2Proof.Laws.OneEncoding.Statement (.ctff x0 x1) := fun _ _ => Or.inr rfl
theorem Sys2Proof.Laws.OneEncoding.ctrd : ∀ x0 x1 x2, Sys2Proof.Laws.OneEncoding.Statement (.ctrd x0 x1 x2) := fun _ _ _ => Or.inr rfl
theorem Sys2Proof.Laws.OneEncoding.enq : ∀ x0 x1 x2 x3, Sys2Proof.Laws.OneEncoding.Statement (.enq x0 x1 x2 x3) := fun _ _ _ _ => Or.inr rfl
theorem Sys2Proof.Laws.OneEncoding.deq : ∀ x0 x1 x2 x3, Sys2Proof.Laws.OneEncoding.Statement (.deq x0 x1 x2 x3) := fun _ _ _ _ => Or.inr rfl
theorem Sys2Proof.Laws.OneEncoding.qinfo : ∀ x0 x1, Sys2Proof.Laws.OneEncoding.Statement (.qinfo x0 x1) := fun _ _ => Or.inr rfl
theorem Sys2Proof.Laws.OneEncoding.ldf : ∀ x0 x1, Sys2Proof.Laws.OneEncoding.Statement (.ldf x0 x1) := fun _ _ => Or.inr rfl
theorem Sys2Proof.Laws.OneEncoding.ldfNw : ∀ x0 x1, Sys2Proof.Laws.OneEncoding.Statement (.ldfNw x0 x1) := fun _ _ => Or.inr rfl
theorem Sys2Proof.Laws.OneEncoding.stf : ∀ x0 x1 x2, Sys2Proof.Laws.OneEncoding.Statement (.stf x0 x1 x2) := fun _ _ _ => Or.inr rfl
theorem Sys2Proof.Laws.OneEncoding.fclr : ∀ x0 x1, Sys2Proof.Laws.OneEncoding.Statement (.fclr x0 x1) := fun _ _ => Or.inr rfl
theorem Sys2Proof.Laws.OneEncoding.spawn : ∀ x0 x1, Sys2Proof.Laws.OneEncoding.Statement (.spawn x0 x1) := fun _ _ => Or.inr rfl
theorem Sys2Proof.Laws.OneEncoding.spawnPeer : ∀ x0 x1 x2, Sys2Proof.Laws.OneEncoding.Statement (.spawnPeer x0 x1 x2) := fun _ _ _ => Or.inr rfl
theorem Sys2Proof.Laws.OneEncoding.susp : ∀ x0 x1, Sys2Proof.Laws.OneEncoding.Statement (.susp x0 x1) := fun _ _ => Or.inr rfl
theorem Sys2Proof.Laws.OneEncoding.suspRequeue : ∀ x0, Sys2Proof.Laws.OneEncoding.Statement (.suspRequeue x0) := fun _ => Or.inr rfl
theorem Sys2Proof.Laws.OneEncoding.endTask : Sys2Proof.Laws.OneEncoding.Statement (.endTask) := Or.inr rfl
theorem Sys2Proof.Laws.OneEncoding.gld : ∀ x0 x1 x2, Sys2Proof.Laws.OneEncoding.Statement (.gld x0 x1 x2) := fun _ _ _ => Or.inr rfl
theorem Sys2Proof.Laws.OneEncoding.gldm : ∀ x0 x1 x2 x3, Sys2Proof.Laws.OneEncoding.Statement (.gldm x0 x1 x2 x3) := fun _ _ _ _ => Or.inr rfl
theorem Sys2Proof.Laws.OneEncoding.gst : ∀ x0 x1 x2 x3, Sys2Proof.Laws.OneEncoding.Statement (.gst x0 x1 x2 x3) := fun _ _ _ _ => Or.inr rfl
theorem Sys2Proof.Laws.OneEncoding.garr : ∀ x0 x1, Sys2Proof.Laws.OneEncoding.Statement (.garr x0 x1) := fun _ _ => Or.inr rfl
theorem Sys2Proof.Laws.OneEncoding.gwait : ∀ x0 x1 x2, Sys2Proof.Laws.OneEncoding.Statement (.gwait x0 x1 x2) := fun _ _ _ => Or.inr rfl
theorem Sys2Proof.Laws.OneEncoding.evsend : ∀ x0 x1, Sys2Proof.Laws.OneEncoding.Statement (.evsend x0 x1) := fun _ _ => Or.inr rfl
theorem Sys2Proof.Laws.OneEncoding.wait : ∀ x0 x1, Sys2Proof.Laws.OneEncoding.Statement (.wait x0 x1) := fun _ _ => Or.inr rfl
theorem Sys2Proof.Laws.OneEncoding.yield : ∀ x0, Sys2Proof.Laws.OneEncoding.Statement (.yield x0) := fun _ => Or.inr rfl
theorem Sys2Proof.Laws.OneEncoding.rdsr : ∀ x0 x1, Sys2Proof.Laws.OneEncoding.Statement (.rdsr x0 x1) := fun _ _ => Or.inr rfl
theorem Sys2Proof.Laws.OneEncoding.wrsr : ∀ x0 x1, Sys2Proof.Laws.OneEncoding.Statement (.wrsr x0 x1) := fun _ _ => Or.inr rfl
theorem Sys2Proof.Laws.OneEncoding.trap : ∀ x0, Sys2Proof.Laws.OneEncoding.Statement (.trap x0) := fun _ => Or.inr rfl
theorem Sys2Proof.Laws.OneEncoding.eret : Sys2Proof.Laws.OneEncoding.Statement (.eret) := Or.inr rfl
theorem Sys2Proof.Laws.OneEncoding.nop : Sys2Proof.Laws.OneEncoding.Statement (.nop) := Or.inr rfl
theorem Sys2Proof.Laws.OneEncoding.mma : ∀ x0 x1 x2, Sys2Proof.Laws.OneEncoding.Statement (.mma x0 x1 x2) := fun _ _ _ => Or.inl rfl
theorem Sys2Proof.Laws.OneEncoding.mmaz : ∀ x0 x1 x2, Sys2Proof.Laws.OneEncoding.Statement (.mmaz x0 x1 x2) := fun _ _ _ => Or.inl rfl
theorem Sys2Proof.Laws.OneEncoding.wload : ∀ x0 x1, Sys2Proof.Laws.OneEncoding.Statement (.wload x0 x1) := fun _ _ => Or.inl rfl
theorem Sys2Proof.Laws.OneEncoding.wdrop : ∀ x0, Sys2Proof.Laws.OneEncoding.Statement (.wdrop x0) := fun _ => Or.inl rfl
theorem Sys2Proof.Laws.OneEncoding.czero : ∀ x0 x1 x2 x3, Sys2Proof.Laws.OneEncoding.Statement (.czero x0 x1 x2 x3) := fun _ _ _ _ => Or.inl rfl
theorem Sys2Proof.Laws.OneEncoding.cload : ∀ x0 x1, Sys2Proof.Laws.OneEncoding.Statement (.cload x0 x1) := fun _ _ => Or.inl rfl
theorem Sys2Proof.Laws.OneEncoding.cstore : ∀ x0 x1 x2 x3 x4 x5 x6, Sys2Proof.Laws.OneEncoding.Statement (.cstore x0 x1 x2 x3 x4 x5 x6) := fun _ _ _ _ _ _ _ => Or.inl rfl
theorem Sys2Proof.Laws.OneEncoding.crow : ∀ x0 x1 x2, Sys2Proof.Laws.OneEncoding.Statement (.crow x0 x1 x2) := fun _ _ _ => Or.inl rfl
theorem Sys2Proof.Laws.OneEncoding.cput : ∀ x0 x1 x2, Sys2Proof.Laws.OneEncoding.Statement (.cput x0 x1 x2) := fun _ _ _ => Or.inl rfl
theorem Sys2Proof.Laws.OneEncoding.vadd : ∀ x0 x1 x2 x3 x4, Sys2Proof.Laws.OneEncoding.Statement (.vadd x0 x1 x2 x3 x4) := fun _ _ _ _ _ => Or.inl rfl
theorem Sys2Proof.Laws.OneEncoding.vsub : ∀ x0 x1 x2 x3 x4, Sys2Proof.Laws.OneEncoding.Statement (.vsub x0 x1 x2 x3 x4) := fun _ _ _ _ _ => Or.inl rfl
theorem Sys2Proof.Laws.OneEncoding.vmul : ∀ x0 x1 x2 x3 x4, Sys2Proof.Laws.OneEncoding.Statement (.vmul x0 x1 x2 x3 x4) := fun _ _ _ _ _ => Or.inl rfl
theorem Sys2Proof.Laws.OneEncoding.vfma : ∀ x0 x1 x2 x3 x4, Sys2Proof.Laws.OneEncoding.Statement (.vfma x0 x1 x2 x3 x4) := fun _ _ _ _ _ => Or.inl rfl
theorem Sys2Proof.Laws.OneEncoding.vmax : ∀ x0 x1 x2 x3 x4, Sys2Proof.Laws.OneEncoding.Statement (.vmax x0 x1 x2 x3 x4) := fun _ _ _ _ _ => Or.inl rfl
theorem Sys2Proof.Laws.OneEncoding.vmin : ∀ x0 x1 x2 x3 x4, Sys2Proof.Laws.OneEncoding.Statement (.vmin x0 x1 x2 x3 x4) := fun _ _ _ _ _ => Or.inl rfl
theorem Sys2Proof.Laws.OneEncoding.vabs : ∀ x0 x1 x2 x3, Sys2Proof.Laws.OneEncoding.Statement (.vabs x0 x1 x2 x3) := fun _ _ _ _ => Or.inl rfl
theorem Sys2Proof.Laws.OneEncoding.vcmp : ∀ x0 x1 x2 x3 x4 x5, Sys2Proof.Laws.OneEncoding.Statement (.vcmp x0 x1 x2 x3 x4 x5) := fun _ _ _ _ _ _ => Or.inl rfl
theorem Sys2Proof.Laws.OneEncoding.vsel : ∀ x0 x1 x2 x3 x4, Sys2Proof.Laws.OneEncoding.Statement (.vsel x0 x1 x2 x3 x4) := fun _ _ _ _ _ => Or.inl rfl
theorem Sys2Proof.Laws.OneEncoding.vcvt : ∀ x0 x1 x2 x3, Sys2Proof.Laws.OneEncoding.Statement (.vcvt x0 x1 x2 x3) := fun _ _ _ _ => Or.inl rfl
theorem Sys2Proof.Laws.OneEncoding.vreds : ∀ x0 x1 x2 x3, Sys2Proof.Laws.OneEncoding.Statement (.vreds x0 x1 x2 x3) := fun _ _ _ _ => Or.inl rfl
theorem Sys2Proof.Laws.OneEncoding.vredm : ∀ x0 x1 x2 x3, Sys2Proof.Laws.OneEncoding.Statement (.vredm x0 x1 x2 x3) := fun _ _ _ _ => Or.inl rfl
theorem Sys2Proof.Laws.OneEncoding.vbcast : ∀ x0 x1 x2, Sys2Proof.Laws.OneEncoding.Statement (.vbcast x0 x1 x2) := fun _ _ _ => Or.inl rfl
theorem Sys2Proof.Laws.OneEncoding.vld : ∀ x0 x1 x2 x3 x4, Sys2Proof.Laws.OneEncoding.Statement (.vld x0 x1 x2 x3 x4) := fun _ _ _ _ _ => Or.inl rfl
theorem Sys2Proof.Laws.OneEncoding.vst : ∀ x0 x1 x2 x3 x4, Sys2Proof.Laws.OneEncoding.Statement (.vst x0 x1 x2 x3 x4) := fun _ _ _ _ _ => Or.inl rfl
theorem Sys2Proof.Laws.OneEncoding.btopk : ∀ x0 x1 x2 x3, Sys2Proof.Laws.OneEncoding.Statement (.btopk x0 x1 x2 x3) := fun _ _ _ _ => Or.inl rfl
theorem Sys2Proof.Laws.OneEncoding.xexp2 : ∀ x0 x1 x2, Sys2Proof.Laws.OneEncoding.Statement (.xexp2 x0 x1 x2) := fun _ _ _ => Or.inl rfl
theorem Sys2Proof.Laws.OneEncoding.xlog2 : ∀ x0 x1 x2, Sys2Proof.Laws.OneEncoding.Statement (.xlog2 x0 x1 x2) := fun _ _ _ => Or.inl rfl
theorem Sys2Proof.Laws.OneEncoding.xrcp : ∀ x0 x1 x2, Sys2Proof.Laws.OneEncoding.Statement (.xrcp x0 x1 x2) := fun _ _ _ => Or.inl rfl
theorem Sys2Proof.Laws.OneEncoding.xrsq : ∀ x0 x1 x2, Sys2Proof.Laws.OneEncoding.Statement (.xrsq x0 x1 x2) := fun _ _ _ => Or.inl rfl
theorem Sys2Proof.Laws.OneEncoding.xtanh : ∀ x0 x1 x2, Sys2Proof.Laws.OneEncoding.Statement (.xtanh x0 x1 x2) := fun _ _ _ => Or.inl rfl
theorem Sys2Proof.Laws.OneEncoding.xsig : ∀ x0 x1 x2, Sys2Proof.Laws.OneEncoding.Statement (.xsig x0 x1 x2) := fun _ _ _ => Or.inl rfl
theorem Sys2Proof.Laws.OneEncoding.take : ∀ x0, Sys2Proof.Laws.OneEncoding.Statement (.take x0) := fun _ => Or.inl rfl
theorem Sys2Proof.Laws.OneEncoding.give : ∀ x0, Sys2Proof.Laws.OneEncoding.Statement (.give x0) := fun _ => Or.inl rfl
theorem Sys2Proof.Laws.OneEncoding.hrel : ∀ x0, Sys2Proof.Laws.OneEncoding.Statement (.hrel x0) := fun _ => Or.inl rfl
theorem Sys2Proof.Laws.OneEncoding.sadd : ∀ x0 x1 x2, Sys2Proof.Laws.OneEncoding.Statement (.sadd x0 x1 x2) := fun _ _ _ => Or.inl rfl
theorem Sys2Proof.Laws.OneEncoding.ssub : ∀ x0 x1 x2, Sys2Proof.Laws.OneEncoding.Statement (.ssub x0 x1 x2) := fun _ _ _ => Or.inl rfl
theorem Sys2Proof.Laws.OneEncoding.sand : ∀ x0 x1 x2, Sys2Proof.Laws.OneEncoding.Statement (.sand x0 x1 x2) := fun _ _ _ => Or.inl rfl
theorem Sys2Proof.Laws.OneEncoding.sshl : ∀ x0 x1 x2, Sys2Proof.Laws.OneEncoding.Statement (.sshl x0 x1 x2) := fun _ _ _ => Or.inl rfl
theorem Sys2Proof.Laws.OneEncoding.saddi : ∀ x0 x1 x2, Sys2Proof.Laws.OneEncoding.Statement (.saddi x0 x1 x2) := fun _ _ _ => Or.inl rfl
theorem Sys2Proof.Laws.OneEncoding.sldi : ∀ x0 x1, Sys2Proof.Laws.OneEncoding.Statement (.sldi x0 x1) := fun _ _ => Or.inl rfl
theorem Sys2Proof.Laws.OneEncoding.sld : ∀ x0 x1 x2, Sys2Proof.Laws.OneEncoding.Statement (.sld x0 x1 x2) := fun _ _ _ => Or.inl rfl
theorem Sys2Proof.Laws.OneEncoding.sst : ∀ x0 x1 x2, Sys2Proof.Laws.OneEncoding.Statement (.sst x0 x1 x2) := fun _ _ _ => Or.inl rfl
theorem Sys2Proof.Laws.OneEncoding.br : ∀ x0 x1, Sys2Proof.Laws.OneEncoding.Statement (.br x0 x1) := fun _ _ => Or.inl rfl
theorem Sys2Proof.Laws.OneEncoding.brc : ∀ x0 x1 x2 x3, Sys2Proof.Laws.OneEncoding.Statement (.brc x0 x1 x2 x3) := fun _ _ _ _ => Or.inl rfl
theorem Sys2Proof.Laws.OneEncoding.loop : ∀ x0 x1 x2, Sys2Proof.Laws.OneEncoding.Statement (.loop x0 x1 x2) := fun _ _ _ => Or.inl rfl
theorem Sys2Proof.Laws.OneEncoding.drain : Sys2Proof.Laws.OneEncoding.Statement (.drain) := Or.inl rfl
theorem Sys2Proof.Laws.OneEncoding.signal : ∀ x0 x1, Sys2Proof.Laws.OneEncoding.Statement (.signal x0 x1) := fun _ _ => Or.inl rfl
theorem Sys2Proof.Laws.OneEncoding.halt : Sys2Proof.Laws.OneEncoding.Statement (.halt) := Or.inl rfl
theorem Sys2Proof.Laws.OneEncoding.snop : Sys2Proof.Laws.OneEncoding.Statement (.snop) := Or.inl rfl
theorem Sys2Proof.Laws.OneEncoding.hdrf : ∀ x0 x1 x2, Sys2Proof.Laws.OneEncoding.Statement (.hdrf x0 x1 x2) := fun _ _ _ => Or.inl rfl
theorem Sys2Proof.Laws.OneEncoding.pendingWriteLand : ∀ x0 x1, Sys2Proof.Laws.OneEncoding.Statement (.pendingWriteLand x0 x1) := fun _ _ => Or.inl rfl
theorem Sys2Proof.Laws.OneEncoding.mOpCompletion : ∀ x0 x1, Sys2Proof.Laws.OneEncoding.Statement (.mOpCompletion x0 x1) := fun _ _ => Or.inl rfl
theorem Sys2Proof.Laws.OneEncoding.memoryReply : ∀ x0 x1, Sys2Proof.Laws.OneEncoding.Statement (.memoryReply x0 x1) := fun _ _ => Or.inl rfl
theorem Sys2Proof.Laws.OneEncoding.storePathPerform : ∀ x0 x1, Sys2Proof.Laws.OneEncoding.Statement (.storePathPerform x0 x1) := fun _ _ => Or.inl rfl
theorem Sys2Proof.Laws.OneEncoding.sfuResult : ∀ x0, Sys2Proof.Laws.OneEncoding.Statement (.sfuResult x0) := fun _ => Or.inl rfl
theorem Sys2Proof.Laws.OneEncoding.yieldEnd : ∀ x0, Sys2Proof.Laws.OneEncoding.Statement (.yieldEnd x0) := fun _ => Or.inl rfl
theorem Sys2Proof.Laws.OneEncoding.timerExpiry : ∀ x0 x1, Sys2Proof.Laws.OneEncoding.Statement (.timerExpiry x0 x1) := fun _ _ => Or.inl rfl
theorem Sys2Proof.Laws.OneEncoding.servePendingRequest : ∀ x0 x1, Sys2Proof.Laws.OneEncoding.Statement (.servePendingRequest x0 x1) := fun _ _ => Or.inl rfl
theorem Sys2Proof.Laws.OneEncoding.bind : ∀ x0, Sys2Proof.Laws.OneEncoding.Statement (.bind x0) := fun _ => Or.inl rfl
theorem Sys2Proof.Laws.OneEncoding.handlerBind : ∀ x0 x1, Sys2Proof.Laws.OneEncoding.Statement (.handlerBind x0 x1) := fun _ _ => Or.inl rfl
theorem Sys2Proof.Laws.OneEncoding.faultQueueRetry : ∀ x0, Sys2Proof.Laws.OneEncoding.Statement (.faultQueueRetry x0) := fun _ => Or.inl rfl
theorem Sys2Proof.Laws.OneEncoding.crewRetirement : ∀ x0, Sys2Proof.Laws.OneEncoding.Statement (.crewRetirement x0) := fun _ => Or.inl rfl
theorem Sys2Proof.Laws.OneEncoding.clusterDrainEnd : ∀ x0, Sys2Proof.Laws.OneEncoding.Statement (.clusterDrainEnd x0) := fun _ => Or.inl rfl
theorem Sys2Proof.Laws.OneEncoding.launchSelection : ∀ x0, Sys2Proof.Laws.OneEncoding.Statement (.launchSelection x0) := fun _ => Or.inl rfl
theorem Sys2Proof.Laws.OneEncoding.wdqGrant : Sys2Proof.Laws.OneEncoding.Statement (.wdqGrant) := Or.inl rfl
theorem Sys2Proof.Laws.OneEncoding.copyQuantum : ∀ x0 x1, Sys2Proof.Laws.OneEncoding.Statement (.copyQuantum x0 x1) := fun _ _ => Or.inl rfl
theorem Sys2Proof.Laws.OneEncoding.gldmResult : ∀ x0 x1, Sys2Proof.Laws.OneEncoding.Statement (.gldmResult x0 x1) := fun _ _ => Or.inl rfl
theorem Sys2Proof.Laws.OneEncoding.preemptionEvent : Sys2Proof.Laws.OneEncoding.Statement (.preemptionEvent) := Or.inl rfl
theorem Sys2Proof.Laws.OneEncoding.copyOut : Sys2Proof.Laws.OneEncoding.Statement (.copyOut) := Or.inl rfl
theorem Sys2Proof.Laws.OneEncoding.resumeCopyBack : Sys2Proof.Laws.OneEncoding.Statement (.resumeCopyBack) := Or.inl rfl
theorem Sys2Proof.Laws.OneEncoding.activate : Sys2Proof.Laws.OneEncoding.Statement (.activate) := Or.inl rfl
theorem Sys2Proof.Laws.OneEncoding.preempt : Sys2Proof.Laws.OneEncoding.Statement (.preempt) := Or.inl rfl
theorem Sys2Proof.Laws.OneEncoding.resume : Sys2Proof.Laws.OneEncoding.Statement (.resume) := Or.inl rfl
theorem Sys2Proof.Laws.OneEncoding.haltCommand : Sys2Proof.Laws.OneEncoding.Statement (.haltCommand) := Or.inl rfl
theorem Sys2Proof.Laws.OneEncoding.deactivate : Sys2Proof.Laws.OneEncoding.Statement (.deactivate) := Or.inl rfl
theorem Sys2Proof.Laws.OneEncoding.mxresume : ∀ x0 x1 x2, Sys2Proof.Laws.OneEncoding.Statement (.mxresume x0 x1 x2) := fun _ _ _ => Or.inl rfl
theorem Sys2Proof.Laws.OneEncoding.mxhalt : ∀ x0 x1 x2, Sys2Proof.Laws.OneEncoding.Statement (.mxhalt x0 x1 x2) := fun _ _ _ => Or.inl rfl
theorem Sys2Proof.Laws.OneEncoding.freeze : ∀ x0 x1, Sys2Proof.Laws.OneEncoding.Statement (.freeze x0 x1) := fun _ _ => Or.inl rfl
theorem Sys2Proof.Laws.OneEncoding.thaw : ∀ x0 x1, Sys2Proof.Laws.OneEncoding.Statement (.thaw x0 x1) := fun _ _ => Or.inl rfl
theorem Sys2Proof.Laws.OneEncoding.release : ∀ x0 x1, Sys2Proof.Laws.OneEncoding.Statement (.release x0 x1) := fun _ _ => Or.inl rfl
theorem Sys2Proof.Laws.OneEncoding.tlbinvPage : ∀ x0 x1 x2, Sys2Proof.Laws.OneEncoding.Statement (.tlbinvPage x0 x1 x2) := fun _ _ _ => Or.inl rfl
theorem Sys2Proof.Laws.OneEncoding.tlbinvAsid : ∀ x0 x1, Sys2Proof.Laws.OneEncoding.Statement (.tlbinvAsid x0 x1) := fun _ _ => Or.inl rfl
theorem Sys2Proof.Laws.OneEncoding.tlbinvAll : ∀ x0, Sys2Proof.Laws.OneEncoding.Statement (.tlbinvAll x0) := fun _ => Or.inl rfl
theorem Sys2Proof.Laws.OneEncoding.doorbell : ∀ x0 x1 x2, Sys2Proof.Laws.OneEncoding.Statement (.doorbell x0 x1 x2) := fun _ _ _ => Or.inl rfl
theorem Sys2Proof.Laws.OneEncoding.acq : ∀ x0, Sys2Proof.Laws.OneEncoding.Statement (.acq x0) := fun _ => Or.inl rfl
theorem Sys2Proof.Laws.OneEncoding.rel : ∀ x0, Sys2Proof.Laws.OneEncoding.Statement (.rel x0) := fun _ => Or.inl rfl
theorem Sys2Proof.Laws.OneEncoding.stage : ∀ x0 x1, Sys2Proof.Laws.OneEncoding.Statement (.stage x0 x1) := fun _ _ => Or.inl rfl
theorem Sys2Proof.Laws.OneEncoding.fabricLogClr : ∀ x0 x1, Sys2Proof.Laws.OneEncoding.Statement (.fabricLogClr x0 x1) := fun _ _ => Or.inl rfl
theorem Sys2Proof.Laws.OneEncoding.identity : ∀ x0 x1, Sys2Proof.Laws.OneEncoding.Statement (.identity x0 x1) := fun _ _ => Or.inl rfl
theorem Sys2Proof.Laws.OneEncoding.certs : ∀ x0 x1, Sys2Proof.Laws.OneEncoding.Statement (.certs x0 x1) := fun _ _ => Or.inl rfl
theorem Sys2Proof.Laws.OneEncoding.attest : ∀ x0 x1, Sys2Proof.Laws.OneEncoding.Statement (.attest x0 x1) := fun _ _ => Or.inl rfl
theorem Sys2Proof.Laws.OneEncoding.fwstage : ∀ x0 x1, Sys2Proof.Laws.OneEncoding.Statement (.fwstage x0 x1) := fun _ _ => Or.inl rfl
theorem Sys2Proof.Laws.OneEncoding.fwcommit : ∀ x0 x1 x2, Sys2Proof.Laws.OneEncoding.Statement (.fwcommit x0 x1 x2) := fun _ _ _ => Or.inl rfl
theorem Sys2Proof.Laws.OneEncoding.registerWrite : ∀ x0 x1 x2, Sys2Proof.Laws.OneEncoding.Statement (.registerWrite x0 x1 x2) := fun _ _ _ => Or.inl rfl
theorem Sys2Proof.Laws.OneEncoding.powerGood : Sys2Proof.Laws.OneEncoding.Statement (.powerGood) := Or.inl rfl
theorem Sys2Proof.Laws.OneEncoding.cxlHotReset : Sys2Proof.Laws.OneEncoding.Statement (.cxlHotReset) := Or.inl rfl
theorem Sys2Proof.Laws.OneEncoding.romCheckEnd : ∀ x0, Sys2Proof.Laws.OneEncoding.Statement (.romCheckEnd x0) := fun _ => Or.inl rfl
theorem Sys2Proof.Laws.OneEncoding.bringUpEnd : ∀ x0, Sys2Proof.Laws.OneEncoding.Statement (.bringUpEnd x0) := fun _ => Or.inl rfl
theorem Sys2Proof.Laws.OneEncoding.linkDown : ∀ x0, Sys2Proof.Laws.OneEncoding.Statement (.linkDown x0) := fun _ => Or.inl rfl
theorem Sys2Proof.Laws.OneEncoding.telemetryRefresh : ∀ x0, Sys2Proof.Laws.OneEncoding.Statement (.telemetryRefresh x0) := fun _ => Or.inl rfl
theorem Sys2Proof.Laws.OneEncoding.criticalTrip : Sys2Proof.Laws.OneEncoding.Statement (.criticalTrip) := Or.inl rfl
theorem Sys2Proof.Laws.OneEncoding.controlStateEcc : ∀ x0, Sys2Proof.Laws.OneEncoding.Statement (.controlStateEcc x0) := fun _ => Or.inl rfl
theorem Sys2Proof.Laws.OneEncoding.fetchFill : ∀ x0 x1, Sys2Proof.Laws.OneEncoding.Statement (.fetchFill x0 x1) := fun _ _ => Or.inl rfl
theorem Sys2Proof.Laws.OneEncoding.dxlFlitReceive : ∀ x0, Sys2Proof.Laws.OneEncoding.Statement (.dxlFlitReceive x0) := fun _ => Or.inl rfl
theorem Sys2Proof.Laws.OneEncoding.remoteAccess : Sys2Proof.Laws.OneEncoding.Statement (.remoteAccess) := Or.inl rfl
theorem Sys2Proof.Laws.OneEncoding.postedWriteAck : ∀ x0 x1 x2, Sys2Proof.Laws.OneEncoding.Statement (.postedWriteAck x0 x1 x2) := fun _ _ _ => Or.inl rfl
theorem Sys2Proof.Laws.OneEncoding.deviceLost : ∀ x0, Sys2Proof.Laws.OneEncoding.Statement (.deviceLost x0) := fun _ => Or.inl rfl
theorem Sys2Proof.Laws.OneEncoding.workRequestPost : ∀ x0 x1 x2, Sys2Proof.Laws.OneEncoding.Statement (.workRequestPost x0 x1 x2) := fun _ _ _ => Or.inl rfl
theorem Sys2Proof.Laws.OneEncoding.rdmaWrite : ∀ x0 x1 x2 x3, Sys2Proof.Laws.OneEncoding.Statement (.rdmaWrite x0 x1 x2 x3) := fun _ _ _ _ => Or.inl rfl
theorem Sys2Proof.Laws.OneEncoding.rdmaWriteWithImmediate : ∀ x0 x1 x2 x3 x4, Sys2Proof.Laws.OneEncoding.Statement (.rdmaWriteWithImmediate x0 x1 x2 x3 x4) := fun _ _ _ _ _ => Or.inl rfl
theorem Sys2Proof.Laws.OneEncoding.rdmaRead : ∀ x0 x1 x2 x3, Sys2Proof.Laws.OneEncoding.Statement (.rdmaRead x0 x1 x2 x3) := fun _ _ _ _ => Or.inl rfl
theorem Sys2Proof.Laws.OneEncoding.send : ∀ x0 x1 x2 x3, Sys2Proof.Laws.OneEncoding.Statement (.send x0 x1 x2 x3) := fun _ _ _ _ => Or.inl rfl
theorem Sys2Proof.Laws.OneEncoding.completionEntry : ∀ x0 x1 x2 x3, Sys2Proof.Laws.OneEncoding.Statement (.completionEntry x0 x1 x2 x3) := fun _ _ _ _ => Or.inl rfl
theorem Sys2Proof.Laws.OneEncoding.cxlMemRead : ∀ x0 x1, Sys2Proof.Laws.OneEncoding.Statement (.cxlMemRead x0 x1) := fun _ _ => Or.inl rfl
theorem Sys2Proof.Laws.OneEncoding.cxlMemWrite : ∀ x0 x1 x2 x3, Sys2Proof.Laws.OneEncoding.Statement (.cxlMemWrite x0 x1 x2 x3) := fun _ _ _ _ => Or.inl rfl
theorem Sys2Proof.Laws.OneEncoding.bar2Read : ∀ x0 x1 x2, Sys2Proof.Laws.OneEncoding.Statement (.bar2Read x0 x1 x2) := fun _ _ _ => Or.inl rfl
theorem Sys2Proof.Laws.OneEncoding.bar2Write : ∀ x0 x1 x2, Sys2Proof.Laws.OneEncoding.Statement (.bar2Write x0 x1 x2) := fun _ _ _ => Or.inl rfl
theorem Sys2Proof.Laws.OneEncoding.cxlCacheSnoop : ∀ x0, Sys2Proof.Laws.OneEncoding.Statement (.cxlCacheSnoop x0) := fun _ => Or.inl rfl
theorem Sys2Proof.Laws.OneEncoding.illegalWord : ∀ x0, Sys2Proof.Laws.OneEncoding.Statement (.illegalWord x0) := fun _ => Or.inl rfl
theorem Sys2Proof.Laws.OneEncoding.fetchFault : Sys2Proof.Laws.OneEncoding.Statement (.fetchFault) := Or.inl rfl
theorem Sys2Proof.Laws.OneEncoding.illegalBundle : Sys2Proof.Laws.OneEncoding.Statement (.illegalBundle) := Or.inl rfl
theorem Sys2Proof.Laws.OneEncoding.backInvalidateAnswer : ∀ x0, Sys2Proof.Laws.OneEncoding.Statement (.backInvalidateAnswer x0) := fun _ => Or.inl rfl
theorem Sys2Proof.Laws.OneEncoding.descriptorRefetch : ∀ x0, Sys2Proof.Laws.OneEncoding.Statement (.descriptorRefetch x0) := fun _ => Or.inl rfl
end

