-- ==== Sys2Proof/Tests/Slice0.lean ====
section
/-! SUPPORT. Tests of the model: ill-formed instructions are refused, words of the spec decode, and every statement with hypotheses has a concrete
state and operands that meet them, on which its conclusion is evaluated. -/
namespace Sys2Proof.Tests
open Sys2Proof.Machine
set_option Elab.async false

/-- Slot 0 of core 0 about to run the word w. -/
def seat (w : Word32) (l : List (Reg × Word) := []) : State :=
  l.foldl (fun t p => t.setReg seatCtx p.1 p.2) { State.reset.seatWord w with turns := [], actor := .context 0 w }
/-- The same context with another of its fields. -/
def State.as (s : State) (x : Ctx) : State := s.setCtx 0 x
/-- An outcome is a given next state, as a truth value. -/
def goesTo (r : Host.Outcome State Fault Refusal) (t : State) : Bool := match r with | .next u => decide (u = t) | .fault _ => false | .refused _ => false

/-- The state that an outcome goes on to. -/
def after (r : Host.Outcome State Fault Refusal) : State := match r with | .next u => u | .fault _ => State.reset | .refused _ => State.reset
/-- Whether an outcome goes on. -/
def goesOn (r : Host.Outcome State Fault Refusal) : Bool := match r with | .next _ => true | .fault _ => false | .refused _ => false

theorem next_of {r : Host.Outcome State Fault Refusal} {t : State} (h : goesTo r t = true) : r = .next t := by
  cases r <;> simp_all [goesTo]


theorem wit_RegisterArithmeticResults :
    let s := seat 0x00A63801 [(6, 7), (7, 0xFFFFFFFFFFFFFFFE)]
    (s.acts 0 0x00A63801 seatCtx ∧ s.lets 0 seatCtx (.add 5 6 7) [] false [6, 7]) ∧
      aluForm (s.reg seatCtx) (.add 5 6 7) = some ⟨5, [6, 7], 5⟩ ∧ exec (.add 5 6 7) s = .next (s.gives 0 seatCtx 5 5) := by
  and_intros <;> first | decide +kernel | exact next_of (by decide +kernel)

theorem wit_SelectReadsThreeSources :
    let s := seat 0 [(6, 7), (7, 9), (8, 1)]
    (s.acts 0 0 seatCtx ∧ s.lets 0 seatCtx (.sel 5 6 7 8) [] false [6, 7, 8]) ∧ s.lets 0 seatCtx (.sel 5 6 7 0) [] false [6, 7, 0] ∧
      exec (.sel 5 6 7 8) s = .next (s.gives 0 seatCtx 5 7) ∧ exec (.sel 5 6 7 0) s = .next (s.gives 0 seatCtx 5 9) := by
  and_intros <;> first | decide +kernel | exact next_of (by decide +kernel)

theorem wit_DivisionAndRemainder :
    let s := seat 0 [(6, 0x8000000000000000), (7, 0xFFFFFFFFFFFFFFFF)]
    (s.acts 0 0 seatCtx ∧ s.lets 0 seatCtx (.div 5 6 7) [] false [6, 7]) ∧
      divForm (s.reg seatCtx) (.div 5 6 7) = some ⟨5, [6, 7], 0x8000000000000000⟩ ∧
      exec (.div 5 6 7) s = .next (s.gives 0 seatCtx 5 0x8000000000000000) := by
  and_intros <;> first | decide +kernel | exact next_of (by decide +kernel)

theorem test_rem_by_zero :
    let s := seat 0 [(6, 0xFFFFFFFFFFFFFFFB)]
    exec (.rem 5 6 0) s = .next (s.gives 0 seatCtx 5 0xFFFFFFFFFFFFFFFB) := next_of (by decide +kernel)

theorem wit_ShiftsAndRotates :
    let s := seat 0 [(6, 0x8000000000000000), (7, 0x7F)]
    (s.acts 0 0 seatCtx ∧ s.lets 0 seatCtx (.sra 5 6 7) [] false [6, 7]) ∧
      shiftForm (s.reg seatCtx) (.sra 5 6 7) = some ⟨5, [6, 7], 0xFFFFFFFFFFFFFFFF⟩ ∧
      exec (.sra 5 6 7) s = .next (s.gives 0 seatCtx 5 0xFFFFFFFFFFFFFFFF) := by
  and_intros <;> first | decide +kernel | exact next_of (by decide +kernel)

theorem wit_ImmediateForms :
    let s := seat 0 [(6, 5)]
    (s.acts 0 0 seatCtx ∧ s.lets 0 seatCtx (.addpc 5 0x8000) [] false []) ∧
      immForm (s.reg seatCtx) seatCtx.pc (.addpc 5 0x8000) = some ⟨5, [], 0xFFFFFFFF80010000⟩ ∧
      exec (.addpc 5 0x8000) s = .next (s.gives 0 seatCtx 5 0xFFFFFFFF80010000) ∧
      exec (.andi 5 6 0xFFFC) s = .next (s.gives 0 seatCtx 5 4) := by
  and_intros <;> first | decide +kernel | exact next_of (by decide +kernel)

theorem wit_BitFieldInstructions :
    let s := seat 0 [(5, 0x0FFFFFFFFFFFFFFF), (6, 3)]
    (s.acts 0 0 seatCtx ∧ s.lets 0 seatCtx (.bfi 5 6 7 62) [] false [6, 5]) ∧
      bitfForm (s.reg seatCtx) (.bfi 5 6 7 62) = some ⟨5, [6, 5], 0xCFFFFFFFFFFFFFFF⟩ ∧
      exec (.bfi 5 6 7 62) s = .next (s.gives 0 seatCtx 5 0xCFFFFFFFFFFFFFFF) := by
  and_intros <;> first | decide +kernel | exact next_of (by decide +kernel)

theorem wit_HashAndCounterRandom :
    let s := seat 0 [(6, 1), (7, 2)]
    let f := mixForm (s.reg seatCtx) (.hash 5 6 7)
    (s.acts 0 0 seatCtx ∧ s.lets 0 seatCtx (.hash 5 6 7) [] false [6, 7]) ∧ f.map (fun q => (q.d, q.srcs)) = some (5, [6, 7]) ∧
      exec (.hash 5 6 7) s = .next (s.gives 0 seatCtx 5 ((f.map (·.v)).getD 0)) := by
  and_intros <;> first | decide +kernel | exact next_of (by decide +kernel)

theorem wit_RegisterFormFrame :
    let s := seat 0 [(6, 7)]
    (s.acts 0 0 seatCtx ∧ s.lets 0 seatCtx (.addi 5 6 1) [] false [6]) ∧ memWf s.mem = true ∧
      wordForm (s.reg seatCtx) seatCtx.pc (.addi 5 6 1) = some ⟨5, [6], 8⟩ ∧ exec (.addi 5 6 1) s = .next (s.gives 0 seatCtx 5 8) := by
  and_intros <;> first | decide +kernel | exact next_of (by decide +kernel)

theorem wit_BranchesGoWhereTheyShould :
    let s := seat 0 [(6, 0xFFFFFFFFFFFFFFFF)]
    (s.acts 0 0 seatCtx ∧ s.lets 0 seatCtx (.blt 6 0 0x8000) [] false [6, 0]) ∧ s.lets 0 seatCtx (.bltu 6 0 1) [] false [6, 0] ∧
      exec (.blt 6 0 0x8000) s = .next (s.goes 0 0xFFFFFFFFFFFF0000) ∧ exec (.bltu 6 0 1) s = .next (s.goes 0 0x10004) := by
  and_intros <;> first | decide +kernel | exact next_of (by decide +kernel)

theorem wit_JumpsCallsAndReturns :
    let s := seat 0 [(6, 0x12347)]
    (s.acts 0 0 seatCtx ∧ s.lets 0 seatCtx (.jmp 0x2000000) [] false []) ∧ s.lets 0 seatCtx (.call 1) [] false [] ∧
      s.lets 0 seatCtx (.jr 6 6) [] false [6] ∧ exec (.jmp 0x2000000) s = .next (s.goes 0 0xFFFFFFFFF8010000) ∧
      exec (.call 1) s = .next ((s.setReg seatCtx 31 0x10004).goes 0 0x10004) ∧
      exec (.jr 6 6) s = .next ((s.setReg seatCtx 6 0x10004).goes 0 0x12344) := by
  and_intros <;> first | decide +kernel | exact next_of (by decide +kernel)

theorem wit_PeerAddresses :
    let s := seat 0 [(6, 0), (7, 0x7FFFFF), (8, 0x800000), (9, 1), (10, 0xFFFFFFFFFFFFFFFF)]
    (s.acts 0 0 seatCtx ∧ s.lets 0 seatCtx (.peer 5 6 7) [] false [6, 7]) ∧ s.lets 0 seatCtx (.peerWrap 5 10 7) [] false [10, 7] ∧
      s.lets 0 seatCtx (.peerLoc 5 7) [] false [7] ∧ s.spansizeOf 0 = 1 ∧
      exec (.peer 5 6 7) s = .next (s.gives 0 seatCtx 5 0xFF0000007FFFFF) ∧
      exec (.peer 5 9 7) s = .next (takeTrap s 0 seatCtx (flt .bounds 1) 0) ∧
      exec (.peer 5 6 8) s = .next (takeTrap s 0 seatCtx (flt .bounds 0x800000) 0) ∧
      exec (.peerWrap 5 10 7) s = .next (s.gives 0 seatCtx 5 0xFF0000007FFFFF) ∧
      exec (.peerLoc 5 8) s = .next (takeTrap s 0 seatCtx (flt .bounds 0x800000) 0) := by
  and_intros <;> first | decide +kernel | exact next_of (by decide +kernel)

/-- A state with a descriptor at 0x10040: one dimension, extent 8, block 2, one crew, elements of 8 bytes from 0x100. -/
def locSeat (l : List (Reg × Word)) : State := ((seat 0 l).poke64 0x10040 0x8000000001000301).poke64 0x10048 (8 + 2 * 2 ^ 17 + 2 ^ 34)
/-- A context whose descriptor table starts at 0x10000. -/
def locCtx : Ctx := { seatCtx with dtb := 0x1003F }

/-- What the read of that descriptor gives. -/
def locRead (s : State) : Option (State × List Byte) :=
  match s.readBytes 0 locCtx ((locCtx.dtb &&& ~~~63) + s.reg locCtx 7 * 64) 64 with | .ok q => some q | .error _ => none

theorem wit_LocateAndSwapWorkspace :
    let s := (locSeat [(6, 7), (7, 1), (8, 0x20800020000), (9, word (wsAddr 0 0))]).setCtx 0 locCtx
    let q := (locRead s).getD (s, [])
    let y : Ctx := { locCtx with wp := s.reg locCtx 8 }
    (s.acts 0 0 locCtx ∧ s.lets 0 locCtx (.loc 5 6 7) [] false [6, 7]) ∧ s.lets 0 locCtx (.swapws 5 8) [] false [8] ∧
      (s.reg locCtx 7).toNat < 2 ^ 16 ∧ (locRead s).isSome = true ∧
      (match locValue (dwords q.2 8) (s.reg locCtx 6) (s.spansizeOf 0) with | .ok v => decide (v = 0x138) | .error _ => false) = true ∧
      exec (.loc 5 6 7) s = .next ((q.1.setReg locCtx 5 0x138).past 0 locCtx .reply) ∧
      ownWorkspace (coreOf 0) (s.reg locCtx 8) = true ∧ poolIndex (coreOf 0) (s.reg locCtx 8) = none ∧
      s.liveIn (s.reg locCtx 8).toNat = none ∧ s.reg locCtx 8 ≠ locCtx.wp ∧ ownWorkspace (coreOf 0) (s.reg locCtx 9) = true ∧
      s.reg locCtx 9 = locCtx.home ∧ s.reg locCtx 9 = locCtx.wp ∧ exec (.swapws 5 9) s = .next (s.gives 0 locCtx 5 locCtx.wp) ∧
      exec (.swapws 5 8) s = .next ((((s.poke64 (s.reg locCtx 8).toNat (s.contWord locCtx)).setCtx 0 y).setReg y 5 locCtx.wp).past 0 y .idle) := by
  and_intros <;> first | decide +kernel | exact next_of (by decide +kernel)

/-- A state with that descriptor's first two doublewords given. -/
def locWith (d0 d1 : Word) (x : Word) : State :=
  ((((seat 0 [(6, x), (7, 1), (8, 0x10000), (9, 2)]).poke64 0x10040 d0).poke64 0x10048 d1)).setCtx 0 locCtx
/-- The cause with which LOC of the registers given faults. -/
def locCause (s : State) (b : Reg) : Option Nat := ((after (exec (.loc 5 6 b) s)).ctx? 0).map (fun x => field x.trapinfo 47 40)

theorem wit_LocateAndSwapWorkspace_causes :
    let one : Word := 8 + 2 * 2 ^ 17 + 2 ^ 34
    let d0 : Word := 0x8000000001000301
    locCause (locWith d0 one 7) 8 = some 1 ∧ locCause (locWith d0 one 7) 9 = some 2 ∧ locCause (locWith 0 one 7) 7 = some 2 ∧
      locCause (locWith d0 (8 + 2 ^ 34) 7) 7 = some 2 ∧ locCause (locWith d0 one 8) 7 = some 3 ∧ locCause (locWith d0 one 0x10000) 7 = some 3 ∧
      locCause (locWith d0 (8 + 2 * 2 ^ 17 + 2 ^ 35) 7) 7 = some 4 ∧ locCause (locWith 0x8000007FFFFF0301 one 7) 7 = some 5 := by
  decide +kernel

theorem wit_RegisterReadsAndWrites : memWf (seat 0 [(6, 7)]).mem = true ∧ ((seat 0 [(6, 7)]).setReg seatCtx 6 9).reg seatCtx 6 = 9 := by
  decide +kernel

/-- The page 0x20000 maps the control registers. -/
def withMmio (s : State) : State := s.setCore 0 { s.core 0 with tlb := ⟨1, 2, 16, word (Config.mmioBase + 0x1F)⟩ :: (s.core 0).tlb }

theorem wit_LoadsComplete_memory :
    let s := seat 0 [(6, 0x1003C)]
    let f : LoadForm := ⟨5, [6], 0x1003C, 8, .die, true, .load false⟩
    let q := s.loadParts 0 (some (.ctx 0)) true [] [(0x1003C, 4), (0x10040, 4)]
    (s.acts 0 0 seatCtx ∧ s.lets 0 seatCtx (.memordLd 5 6 .die) [] false [6]) ∧ loadForm (s.reg seatCtx) (.memordLd 5 6 .die) = some f ∧
      s.checkAccess (s.whoOf 0 seatCtx) f.need anyPlace f.va f.n = (s, .ok [(0x1003C, 4), (0x10040, 4)]) ∧
      s.place 0x1003C = .hbm ∧ s.place 0x10040 = .hbm ∧ wideScope f.acq = true ∧ q.2 = .bytes (List.replicate 8 0) ∧
      exec (.memordLd 5 6 .die) s =
        .next (((q.1.deliver 0 seatCtx f.d f.what (List.replicate 8 0)).acquire 0 f.acq).past 0 seatCtx .reply) := by
  and_intros <;> first | decide +kernel | exact next_of (by decide +kernel)

theorem wit_LoadsComplete_control_register :
    let s := withMmio (seat 0 [(6, 0x20000)])
    let f : LoadForm := ⟨5, [6], 0x20000, 8, .ctx, true, .load false⟩
    (s.acts 0 0 seatCtx ∧ s.lets 0 seatCtx (.ld 5 6 0) [] false [6]) ∧ loadForm (s.reg seatCtx) (.ld 5 6 0) = some f ∧
      s.checkAccess (s.whoOf 0 seatCtx) f.need anyPlace f.va f.n = (s, .ok [(Config.mmioBase, 8)]) ∧ s.place Config.mmioBase = .mmio ∧
      exec (.ld 5 6 0) s = .next (((s.deliver 0 seatCtx f.d f.what (leBytes 8 (s.regRead (.context 0) Config.mmioBase).toNat)).acquire 0
        f.acq).past 0 seatCtx .reply) := by
  and_intros <;> first | decide +kernel | exact next_of (by decide +kernel)

theorem wit_ScratchpadLoadsReadTheBank :
    let s := seat 0 [(6, 0xFF0000007FFFF0)]
    let f : LoadForm := ⟨8, [6], 0xFF0000007FFFF0, 16, .ctx, false, .pair⟩
    (s.acts 0 0 seatCtx ∧ s.lets 0 seatCtx (.lq 8 6 0) [] false [6]) ∧ memWf s.mem = true ∧ loadForm (s.reg seatCtx) (.lq 8 6 0) = some f ∧
      s.checkAccess (s.whoOf 0 seatCtx) f.need anyPlace f.va f.n = (s, .ok [(padAddr 0 0x7FFFF0, 16)]) ∧
      s.place (padAddr 0 0x7FFFF0) = .pad 0 0x7FFFF0 ∧
      exec (.lq 8 6 0) s = .next (((s.deliver 0 seatCtx f.d f.what (memRead s.mem (padAddr 0 0x7FFFF0) 16)).acquire 0 f.acq).past 0
          seatCtx .reply) := by
  and_intros <;> first | decide +kernel | exact next_of (by decide +kernel)

theorem wit_ScratchpadLoadsReadTheBank_values :
    let s := (seat 0 [(6, 0xFF000000000100), (7, 4)]).poke (padAddr 0 0x100) [0xF0, 0x8F, 0, 0]
    let x := seatCtx
    let t := fun i => (after (exec i s)).reg x 5
    loadForm (s.reg x) (.lh 5 6 0) = some ⟨5, [6], 0xFF000000000100, 2, .ctx, false, .load true⟩ ∧
      loadForm (s.reg x) (.lbit 5 6 7 true 7) = some ⟨5, [6, 7], 0xFF000000000100, 2, .ctx, false, .bits 4 8 true⟩ ∧
      s.place (padAddr 0 0x100) = .pad 0 0x100 ∧ memWf s.mem = true ∧
      t (.lh 5 6 0) = 0xFFFFFFFFFFFF8FF0 ∧ t (.lhu 5 6 0) = 0x8FF0 ∧ t (.lbit 5 6 7 true 7) = 0xFFFFFFFFFFFFFFFF ∧
      t (.lbit 5 6 7 false 7) = 0xFF := by
  decide +kernel

theorem wit_StoresComplete_memory :
    let s := seat 0 [(6, 0x10103), (8, 0x1122334455667788)]
    let f : StoreForm := ⟨[8, 6], 0x10103, leBytes 4 0x55667788, some .die, false⟩
    let q := s.storeParts (s.whoOf 0 seatCtx) 0 (splitStore [(0x10103, 4)] f.bytes)
    (s.acts 0 0 seatCtx ∧ s.lets 0 seatCtx (.memordSw 8 6 .die) [] false [8, 6]) ∧ storeForm (s.reg seatCtx) (.memordSw 8 6 .die) = some f ∧
      s.checkAccess (s.whoOf 0 seatCtx) f.need anyPlace f.va f.bytes.length = (s, .ok [(0x10103, 4)]) ∧ s.release 0 f.rel = (s, true) ∧
      s.place 0x10103 = .hbm ∧ s.awayPad 0x10103 = false ∧ exec (.memordSw 8 6 .die) s = .next (q.1.past 0 seatCtx .idle) := by
  and_intros <;> first | decide +kernel | exact next_of (by decide +kernel)

theorem wit_StoresComplete_control_register :
    let s := withMmio (seat 0 [(6, 0x20000), (8, 3)])
    let f : StoreForm := ⟨[8, 6], 0x20060, leBytes 8 3, none, true⟩
    let q := s.regWrite (.context 0) (Config.mmioBase + 0x60) f.va 3
    (s.acts 0 0 seatCtx ∧ s.lets 0 seatCtx (.sd 8 6 0x60) [] false [8, 6]) ∧ storeForm (s.reg seatCtx) (.sd 8 6 0x60) = some f ∧
      s.checkAccess (s.whoOf 0 seatCtx) f.need anyPlace f.va f.bytes.length = (s, .ok [(Config.mmioBase + 0x60, 8)]) ∧
      s.release 0 f.rel = (s, true) ∧ s.place (Config.mmioBase + 0x60) = .mmio ∧ q = (q.1, .ok ()) ∧
      exec (.sd 8 6 0x60) s = .next (q.1.past 0 seatCtx .idle) := by
  and_intros <;> first | decide +kernel | exact next_of (by decide +kernel)

theorem wit_ScratchpadStoresWriteTheBank :
    let s := seat 0 [(6, 0xFF0000007FFFF0), (8, 0x1122334455667788), (9, 5)]
    let f : StoreForm := ⟨[8, 9, 6], 0xFF0000007FFFF0, leBytes 8 0x1122334455667788 ++ leBytes 8 5, none, false⟩
    (s.acts 0 0 seatCtx ∧ s.lets 0 seatCtx (.sq 8 6 0) [] false [8, 9, 6]) ∧ memWf s.mem = true ∧ storeForm (s.reg seatCtx) (.sq 8 6 0) = some f ∧
      s.checkAccess (s.whoOf 0 seatCtx) f.need anyPlace f.va f.bytes.length = (s, .ok [(padAddr 0 0x7FFFF0, 16)]) ∧
      s.place (padAddr 0 0x7FFFF0) = .pad 0 0x7FFFF0 ∧
      exec (.sq 8 6 0) s = .next ((s.poke (padAddr 0 0x7FFFF0) f.bytes).past 0 seatCtx .idle) := by
  and_intros <;> first | decide +kernel | exact next_of (by decide +kernel)

theorem wit_MemoryFaultsArePrecise :
    let s := seat 0 [(6, 0x1FFFD)]
    let f : LoadForm := ⟨5, [6], 0x1FFFD, 4, .ctx, false, .load true⟩
    let g : StoreForm := ⟨[0, 6], 0x1FFFD, [0, 0, 0, 0], none, false⟩
    let p := s.checkAccess (s.whoOf 0 seatCtx) f.need anyPlace f.va f.n
    let q := s.checkAccess (s.whoOf 0 seatCtx) g.need anyPlace g.va g.bytes.length
    (s.acts 0 0 seatCtx ∧ s.lets 0 seatCtx (.lw 5 6 0) [] false [6]) ∧ s.lets 0 seatCtx (.sw 0 6 0) [] false [0, 6] ∧
      loadForm (s.reg seatCtx) (.lw 5 6 0) = some f ∧ storeForm (s.reg seatCtx) (.sw 0 6 0) = some g ∧
      p = (p.1, .fault ⟨4, 0x20000, 3, 0, true, 0⟩) ∧ q = (q.1, .fault ⟨4, 0x20000, 3, 1, true, 0⟩) ∧
      exec (.lw 5 6 0) s = .next (takeTrap p.1 0 seatCtx ⟨4, 0x20000, 3, 0, true, 0⟩ 0) ∧
      exec (.sw 0 6 0) s = .next (takeTrap q.1 0 seatCtx ⟨4, 0x20000, 3, 1, true, 0⟩ 0) := by
  and_intros <;> first | decide +kernel | exact next_of (by decide +kernel)

/-- The page 0x20000 maps a scratchpad of device 3, with DXL trained and routed there. -/
def withPadOf3 (s : State) : State :=
  let t := s.setCore 0 { s.core 0 with tlb := ⟨1, 2, 16, word (3 * Config.localEnd + Config.padBase + 0x1F)⟩ :: (s.core 0).tlb }
  { t with io := { t.io with routes := [(3, 0x8000)] } }

theorem wit_StoresComplete_away :
    let s := withPadOf3 (seat 0 [(6, 0x1FFFC), (8, 3)])
    let f : StoreForm := ⟨[8, 6], 0x1FFFC, leBytes 8 3, none, true⟩
    let far := 3 * Config.localEnd + Config.padBase
    let ps := [(0x1FFFC, 4), (far, 4)]
    let parts := splitStore ps f.bytes
    let t := after (exec (.sd 8 6 0) s)
    let x : Ctx := { seatCtx with granted := [(far, 4)] }
    let z := s.setCtx 0 x
    let u := z.commit f.va 1 parts 0 x
    (s.acts 0 0 seatCtx ∧ s.lets 0 seatCtx (.sd 8 6 0) [] false [8, 6]) ∧ storeForm (s.reg seatCtx) (.sd 8 6 0) = some f ∧
      s.checkAccess (s.whoOf 0 seatCtx) f.need anyPlace f.va f.bytes.length = (s, .ok ps) ∧ s.release 0 f.rel = (s, true) ∧
      s.place 0x1FFFC = .hbm ∧ s.awayPad far = true ∧ 1 < ps.length ∧
      (s.probe seatCtx f.va 1 (parts.map (fun p => (p.1, p.2.len)))).isSome = true ∧
      goesOn (exec (.sd 8 6 0) s) = true ∧ t.mem = s.mem ∧ t.cores = s.cores ∧ z.acts 0 0 x ∧ z.lets 0 x (.sd 8 6 0) [] false [8, 6] ∧
      z.checkAccess (z.whoOf 0 x) f.need anyPlace f.va f.bytes.length = (z, .ok ps) ∧ z.release 0 f.rel = (z, true) ∧
      z.probe x f.va 1 (parts.map (fun p => (p.1, p.2.len))) = none ∧
      x.granted = (parts.filter (fun p => z.awayPad p.1)).map (fun p => (p.1, p.2.len)) ∧
      u.2 = some (.remote ⟨0, f.va, 1, far, 0, [], [], .written [], false⟩) ∧
      u.1 = (((z.modCtx 0 (fun y => { y with granted := [] })).dropWaits 0).storeParts (z.whoOf 0 x) 0 parts).1 ∧
      exec (.sd 8 6 0) z = .next (u.1.past 0 x (.remote ⟨0, f.va, 1, far, 0, [], [], .written [], false⟩)) := by
  and_intros <;> first | decide +kernel | exact next_of (by decide +kernel)

theorem wit_MemoryFaultsArePrecise_away :
    let far := 3 * Config.localEnd + Config.padBase + 0xFFFD
    let x : Ctx := { seatCtx with got := [(far, [1, 2, 3])], granted := [(far, 3)] }
    let s := (withPadOf3 (seat 0 [(6, 0x2FFFD)])).setCtx 0 x
    let p := s.checkAccess (s.whoOf 0 x) Need.load anyPlace 0x2FFFD 4
    let q := s.checkAccess (s.whoOf 0 x) Need.store anyPlace 0x2FFFD 4
    let e : FaultInfo := ⟨4, 0x30000, 3, 0, true, 0⟩
    let g : FaultInfo := ⟨4, 0x30000, 3, 1, true, 0⟩
    (s.acts 0 0 x ∧ s.lets 0 x (.lw 5 6 0) [] false [6]) ∧ s.lets 0 x (.sw 0 6 0) [] false [0, 6] ∧ p = (p.1, .fault e) ∧ q = (q.1, .fault g) ∧
      s.linesBefore (s.whoOf 0 x) Need.load anyPlace 257 0x2FFFD 4 = [(far, 3)] ∧ s.away far = true ∧ s.release 0 none = (s, true) ∧
      (match s.gather 0 x 0x2FFFD [(far, 3)] with | .ok r => decide (r = (s, [1, 2, 3])) | .error _ => false) = true ∧
      q.1.probe x 0x2FFFD 1 (s.linesBefore (s.whoOf 0 x) Need.store anyPlace 257 0x2FFFD 4) = none ∧
      exec (.lw 5 6 0) s = .next (takeTrap s 0 x e 0) ∧ exec (.sw 0 6 0) s = .next (takeTrap q.1 0 x g 0) := by
  and_intros <;> first | decide +kernel | exact next_of (by decide +kernel)

theorem wit_BitFieldStores :
    let s := seat 0 [(6, 0xFF000000000100), (7, 63), (8, 0xFF)]
    let parts := splitBits (cutDwords [(padAddr 0 0x107, 2)]) (leBytes 2 ((2 ^ 8 - 1) * 2 ^ 7)) (leBytes 2 (255 * 2 ^ 7))
    let q := s.storeParts (s.whoOf 0 seatCtx) 0 parts
    (s.acts 0 0 seatCtx ∧ s.lets 0 seatCtx (.sbit 8 6 7 7) [] false [8, 6, 7]) ∧
      s.checkAccess (s.whoOf 0 seatCtx) Need.store anyPlace 0xFF000000000107 2 = (s, .ok [(padAddr 0 0x107, 2)]) ∧
      (parts.all fun p => !s.awayPad p.1) = true ∧ s.place (padAddr 0 0x107) = .pad 0 0x107 ∧ memWf s.mem = true ∧
      exec (.sbit 8 6 7 7) s = .next (q.1.past 0 seatCtx .idle) ∧ memRead q.1.mem (padAddr 0 0x107) 2 = [0x80, 0x7F] ∧
      (PathOp.bits [0x80, 0x7F] [0x80, 0x11]).apply [0x01, 0x82] = [0x81, 0x91] := by
  and_intros <;> first | decide +kernel | exact next_of (by decide +kernel)

theorem wit_AtomicsCompleteOrFault :
    let s := (seat 0 [(5, 7), (6, 0x10104), (7, 0x80000001), (8, 0x10102)]).poke 0x10104 (leBytes 4 7)
    let l := s.setCore 0 { s.core 0 with l1d := [(0x404, 0)] }
    (s.acts 0 0 seatCtx ∧ s.lets 0 seatCtx (.amocas 5 6 7 .w .die .acqrel) [] false [6, 7, 5]) ∧
      s.lets 0 seatCtx (.amoAdd 5 8 7 .w .ctx .none) [] false [8, 7] ∧
      s.checkPart (s.whoOf 0 seatCtx) Need.rmw anyPlace 0x10104 4 = (s, .ok 0x10104) ∧
      s.release 0 (some .die) = (s, true) ∧ s.place 0x10104 = .hbm ∧ s.reach 0 (some (.ctx 0)) true 0x10104 4 = (s, true) ∧
      exec (.amocas 5 6 7 .w .die .acqrel) s =
        .next (((((s.forget 0 0x10104 4).poke 0x10104 (leBytes 4 0x80000001)).setReg seatCtx 5 7).acquire 0 .die).past 0 seatCtx .reply) ∧
      ((l.forget 0 0x10104 4).core 0).l1d = [] ∧
      exec (.amoAdd 5 8 7 .w .ctx .none) s = .next (takeTrap s 0 seatCtx ⟨3, 0x10102, 0, 3, false, 0⟩ 0) := by
  and_intros <;> first | decide +kernel | exact next_of (by decide +kernel)

theorem wit_FenceIcsyncPrefetch :
    let s := seat 0 [(6, 0x10100)]
    let d := { s with io := { s.io with fetchBuf := [[(9, 9)], [(9, 9)], [], []] } }
    let t := after (exec (.icsync .die) d)
    (s.acts 0 0 seatCtx ∧ s.lets 0 seatCtx (.fence .sys .acqrel) [] false []) ∧ s.lets 0 seatCtx (.icsync .crew) [] false [] ∧
      d.acts 0 0 seatCtx ∧ d.lets 0 seatCtx (.icsync .die) [] false [] ∧
      s.lets 0 seatCtx (.pfl .l1 6 0) [] false [] ∧ s.release 0 (some .sys) = (s, true) ∧
      exec (.fence .sys .acqrel) s = .next ((s.acquire 0 .sys).past 0 seatCtx .idle) ∧
      exec (.icsync .crew) s = .next ((s.setCore 0 { s.core 0 with icache := [] }).past 0 seatCtx .idle) ∧
      goesOn (exec (.icsync .die) d) = true ∧ (t.core 0).icache = [] ∧ t.io.fetchBuf = [[], [(9, 9)], [], []] ∧
      (goesOn (exec (.pfl .l1 6 0) s) && decide ((after (exec (.pfl .l1 6 0) s)).mem = s.mem)) = true := by
  and_intros <;> first | decide +kernel | exact next_of (by decide +kernel)

theorem wit_ScalarFloatResults :
    let s := seat 0 [(6, 0x7F7FFFFF), (7, 0x7F7FFFFF)]
    (s.acts 0 0 seatCtx ∧ s.lets 0 seatCtx (.fadd 5 6 7 .rne .s) [] false [6, 7]) ∧ memWf s.mem = true ∧
      floatForm (s.reg seatCtx) seatCtx (.fadd 5 6 7 .rne .s) = some ⟨5, [6, 7], [], (0x7F800000, 5)⟩ ∧
      exec (.fadd 5 6 7 .rne .s) s = .next (((s.setReg seatCtx 5 0x7F800000).raise 0 5).past 0 seatCtx .idle) := by
  and_intros <;> first | decide +kernel | exact next_of (by decide +kernel)

theorem wit_ScalarFloatFrame :
    let s := seat 0 [(6, 0x7F7FFFFF), (7, 0x7F7FFFFF)]
    ((s.acts 0 0 seatCtx ∧ s.lets 0 seatCtx (.fadd 5 6 7 .rne .s) [] false [6, 7]) ∧ memWf s.mem = true ∧
      floatForm (s.reg seatCtx) seatCtx (.fadd 5 6 7 .rne .s) = some ⟨5, [6, 7], [], (0x7F800000, 5)⟩) ∧
      ∃ t, exec (.fadd 5 6 7 .rne .s) s = .next t :=
  ⟨⟨wit_ScalarFloatResults.1, wit_ScalarFloatResults.2.1, wit_ScalarFloatResults.2.2.1⟩, _, wit_ScalarFloatResults.2.2.2⟩

theorem wit_PackedLaneResults :
    let s := seat 0 [(5, 0xA0A1A2A3A4A5A6A7), (6, 0x7F00000000000080), (7, 0x01F700000000808F)]
    (s.acts 0 0 seatCtx ∧ s.lets 0 seatCtx (.padd 5 6 7 false true .b) [2] false [6, 7]) ∧
      s.lets 0 seatCtx (.pshuf 5 6 7) [2] false [6, 7, 5] ∧
      packedForm (s.reg seatCtx) seatCtx (.padd 5 6 7 false true .b) = some ⟨5, [6, 7], [2], (0x7FF7000000008080, 0)⟩ ∧
      exec (.padd 5 6 7 false true .b) s = .next (((s.setReg seatCtx 5 0x7FF7000000008080).raise 0 0).past 0 seatCtx .idle) ∧
      exec (.pshuf 5 6 7) s = .next (s.gives 0 seatCtx 5 0x80808080A780A7A0) := by
  and_intros <;> first | decide +kernel | exact next_of (by decide +kernel)

/-- A context that waits for its division. -/
def sfuCtx : Ctx := { seatCtx with st := .waiting (.sfu 4) }
/-- Its request, whose service has ended. -/
def sfuSeat : State :=
  let s := (seat 0 []).setCtx 0 sfuCtx
  s.setCore 0 { s.core 0 with sfu := [⟨4, 0, 0, seatCtx.wp, 5, .div, .s, 0, 0x3F800000, 0x40000000, 0⟩] }

theorem wit_SpecialFunctionUnit :
    let s := seat 0 [(6, 0x3F800000), (7, 0)]
    let l := sfuSeat.dropCtx 0
    let g := l.poke64 seatCtx.wp.toNat 0x8000
    (s.acts 0 0 seatCtx ∧ s.lets 0 seatCtx (.fdiv 5 6 7 .rne .s) [1] false [6, 7]) ∧
      (sfuForm (s.reg seatCtx) seatCtx (.fdiv 5 6 7 .rne .s)).isSome = true ∧
      (sfuSeat.core 0).sfu = [⟨4, 0, 0, seatCtx.wp, 5, .div, .s, 0, 0x3F800000, 0x40000000, 0⟩] ∧ sfuSeat.ctx? 0 = some sfuCtx ∧
      BitVec.ofNat 8 (field (sfuSeat.contWord sfuCtx) 15 8) = 0 ∧
      exec (.sfuResult 0) sfuSeat =
        .next ((((sfuSeat.setCore 0 { sfuSeat.core 0 with sfu := [] }).setReg sfuCtx 5 0x3F000000).raise 0 0).wake 0) ∧
      l.ctx? 0 = none ∧ BitVec.ofNat 8 (field (l.peek64 seatCtx.wp.toNat) 15 8) = 0 ∧
      BitVec.ofNat 8 (field (g.peek64 seatCtx.wp.toNat) 15 8) ≠ 0 ∧ 0 ≤ l.now ∧
      exec (.sfuResult 0) l =
        .next ((l.setCore 0 { l.core 0 with sfu := [] }).poke64 (seatCtx.wp.toNat + 40) 0x3F000000) ∧
      exec (.sfuResult 0) g = .next (g.setCore 0 { g.core 0 with sfu := [] }) := by
  and_intros <;> first | decide +kernel | exact next_of (by decide +kernel)

/-- What LACZ, LACA and LACR ask of translation. -/
def lacNeeds : List Need := [{ Need.rmw with blind := true }, { Need.rmw with free := true }, { Need.rmw with only := true }]

theorem wit_LongAccumulatorCompletes :
    let s := seat 0 [(6, 0xFF000000000100), (7, 0x7F800001), (8, 0x10100), (9, 0x1013F), (10, 0x3F800000)]
    let one := leBytes 48 (2 ^ 149)
    let z := after (exec (.lacz 6) (s.poke (padAddr 0 0x100) one))
    let a := after (exec (.laca 6 10 .s) s)
    let here := seatCtx
    s.acts 0 0 here ∧ s.lets 0 here (.lacz 6) [3] false [6] ∧ s.lets 0 here (.laca 6 7 .s) [3] false [6, 7] ∧
      s.lets 0 here (.lacr 5 6) [3] false [6] ∧ (s.reg here 9).toNat % 64 ≠ 0 ∧ (s.reg here 6).toNat % 64 = 0 ∧
      (lacNeeds.all fun n => decide (s.checkPart (s.whoOf 0 here) n anyPlace (s.reg here 6) 48 = (s, .ok (padAddr 0 0x100)))) = true ∧
      (lacNeeds.all fun n => decide (s.checkPart (s.whoOf 0 here) n anyPlace (s.reg here 8) 48 = (s, .ok 0x10100))) = true ∧
      s.place (padAddr 0 0x100) = .pad 0 0x100 ∧ s.place 0x10100 = .hbm ∧ s.lacError (s.whoOf 0 here) (padAddr 0 0x100) .s 0x7F800001 = none ∧
      memWf s.mem = true ∧ s.reach 0 (some (.ctx 0)) false (padAddr 0 0x100) 48 = (s, true) ∧
      memRead z.mem (padAddr 0 0x100) 48 = List.replicate 48 0 ∧ memRead a.mem (padAddr 0 0x100) 48 = one ∧
      exec (.lacz 8) s = .next ((s.enterPath 0 ⟨0x10100, .lacZero, 1, 0⟩).past 0 here .idle) ∧
      exec (.laca 8 7 .s) s = .next (((s.enterPath 0 ⟨0x10100, .lacAdd .s 0x7F800001, 1, 0⟩).raise 0 16).past 0 here .idle) ∧
      exec (.lacr 5 6) a = .next ((((a.setReg { here with pc := 0x10004 } 5 0x3F800000).raise 0 0).past 0 { here with pc := 0x10004 } .reply)) ∧
      exec (.lacz 9) s = s.faults 0 here ⟨3, 0x1013F, 0, 3, false, 0⟩ 0 ∧ exec (.laca 9 7 .s) s = s.faults 0 here ⟨3, 0x1013F, 0, 3, false, 0⟩ 0 ∧
      exec (.lacr 5 9) s = s.faults 0 here ⟨3, 0x1013F, 0, 3, false, 0⟩ 0 ∧
      (lacSpecial 0 = false ∧ (BitVec.ofNat 384 (lacAdd 0 (.fin true 3 0))).toInt = 0 + scaled true 3 0 (-149)) := by
  and_intros <;> first | decide +kernel | exact next_of (by decide +kernel)

/-- A header of two rows of eight FP32 elements in state st (03 R61 to R71). -/
def tileHdr (st : Nat) : BitVec 256 :=
  hSeal (BitVec.ofNat 256 (0x4A37 + 2 ^ 16 + st * 2 ^ 24 + 2 ^ 32 + 2 * 2 ^ 64 + 8 * 2 ^ 80 + 2 ^ 112))
/-- That header at 0x100 of the crew's scratchpad, its granule tagged, mx0 running with n handles on its shelf. -/
def tileSeat (st : Nat) (tag : BitVec 2) (n : Nat) (l : List (Reg × Word)) : State :=
  let s := (seat 0 ((6, 0xFF000000000100) :: l)).pokeHdr (padAddr 0 0x100) (tileHdr st)
  let s1 := s.setCluster 0 ((s.cluster 0).tagAll 0x100 96 tag)
  s1.setMx 0 .mx0 { Mx.fresh with st := .run, shelf := List.replicate n 0 }
theorem wit_TileBuffersOpen :
    let s := tileSeat 0 0 0 [(7, 5)]
    let q := tileSeat 1 1 0 [(7, 5)]
    let z := s.setCluster 0 { s.cluster 0 with timers := List.replicate 64 ⟨0x800, 0, .mx0, 0, none⟩ }
    (s.acts 0 0 seatCtx ∧ s.lets 0 seatCtx (.topen 5 6 7) [6] false [6, 7]) ∧ s.buffer 0 seatCtx true 0xFF000000000100 s 0 0x100 ∧
      q.buffer 0 seatCtx true 0xFF000000000100 q 0 0x100 ∧ z.buffer 0 seatCtx true 0xFF000000000100 z 0 0x100 ∧
      hdrFault true 0x100 (s.hdrAt (padAddr 0 0x100)) = none ∧ (s.cluster 0).granulesFree 0x100 96 = true ∧
      (q.cluster 0).granulesFree 0x100 96 = false ∧
      exec (.topen 5 6 7) s = (((s.setCluster 0 { (s.cluster 0).tagOpen 0x100 96 with timers := [⟨0x100, 5, .mx0, 0, none⟩] }).pokeHdr
        (padAddr 0 0x100) (setField (tileHdr 1) 223 192 5))).answers 0 seatCtx 5 0 ∧
      exec (.topen 5 6 7) q = q.faults 0 seatCtx (flt .shelfState 0xFF000000000100 3) 0 ∧
      exec (.topen 5 6 7) z = z.answers 0 seatCtx 5 5 := by
  and_intros <;>
    first | decide +kernel | exact next_of (by decide +kernel) | exact ⟨padAddr 0 0x100, by decide +kernel, by decide +kernel⟩

theorem wit_TileSealAndFree :
    let s := tileSeat 1 1 31 [(7, 0)]
    let z := tileSeat 1 1 32 [(7, 0)]
    let q := tileSeat 2 3 0 [(7, 0)]
    let n := tileSeat 1 1 0 [(7, 1)]
    (s.acts 0 0 seatCtx ∧ s.lets 0 seatCtx (.seal 5 6 7) [6] false [6, 7]) ∧ s.lets 0 seatCtx (.tfree 6) [6] false [6] ∧
      s.buffer 0 seatCtx true 0xFF000000000100 s 0 0x100 ∧
      s.release 0 (some .crew) = (s, true) ∧ s.seen 0 0x100 = .opened ∧
      q.seen 0 0x100 = .closed ∧ (tileSeat 0 0 0 [(7, 0)]).seen 0 0x100 = .free ∧ (s.mx 0 .mx0).accepts = true ∧ (n.mx 0 .mx1).accepts = false ∧
      exec (.seal 5 6 7) s = ((((s.setCluster 0 ((s.cluster 0).tagAll 0x100 96 3)).setMx 0 .mx0
        { s.mx 0 .mx0 with shelf := (s.mx 0 .mx0).shelf ++ [0x100] }).pokeHdr (padAddr 0 0x100) (tileHdr 2))).answers 0 seatCtx 5 0 ∧
      exec (.seal 5 6 7) z = .next ((z.setMx 0 .mx0 { z.mx 0 .mx0 with queue := [⟨0x100, .context 0, 0⟩] }).past 0 seatCtx
        (.waiting (.sealing 5 0x100 .mx0))) ∧
      exec (.seal 5 6 7) q = q.answers 0 seatCtx 5 4 ∧ exec (.seal 5 6 7) n = n.answers 0 seatCtx 5 9 ∧
      exec (.tfree 6) q = q.faults 0 seatCtx (flt .shelfState 0xFF000000000100 3) 0 ∧
      exec (.tfree 6) s = ((s.setCluster 0 ((s.cluster 0).tagAll 0x100 96 0)).pokeHdr (padAddr 0 0x100) (tileHdr 0)).replyTo 0 seatCtx := by
  and_intros <;>
    first | decide +kernel | exact next_of (by decide +kernel) | exact ⟨padAddr 0 0x100, by decide +kernel, by decide +kernel⟩

/-- The context between the steps of a TROW of row 1, or a TELM of element (1, 7), and the state it stands in. -/
def rowCtx (m : Bool) : Ctx :=
  { seatCtx with st := .row ⟨5, 0xFF000000000100, padAddr 0 0x100, 1, m, 0, 32, 64, List.replicate 32 0xAB⟩ }
/-- The same for an element. -/
def elmCtx : Ctx := { seatCtx with st := .row ⟨5, 0xFF000000000100, padAddr 0 0x100, 65543, false, 0, 32, 92, [1, 2, 3, 4]⟩ }

theorem wit_TileAccesses_first :
    let s := tileSeat 1 1 0 [(7, 0xFF000000001000), (8, 1), (9, 0x10007), (10, 0x1234567804030201)]
    let q := tileSeat 2 3 0 [(7, 0xFF000000001000), (8, 1), (9, 0x10007)]
    (s.acts 0 0 seatCtx ∧ s.lets 0 seatCtx (.trow 5 6 7 8) [6] false [6, 7, 8]) ∧ s.lets 0 seatCtx (.telm 5 6 10 9) [6] false [6, 10, 9] ∧
      s.buffer 0 seatCtx false 0xFF000000000100 s 0 0x100 ∧ q.buffer 0 seatCtx false 0xFF000000000100 q 0 0x100 ∧
      hLayout (s.hdrAt (padAddr 0 0x100)) = 0 ∧ (s.reg seatCtx 8).toNat < hRows (s.hdrAt (padAddr 0 0x100)) ∧
      (hElem (s.hdrAt (padAddr 0 0x100))).isBx = false ∧
      exec (.trow 5 6 7 8) s = 
        .next (s.stays 0 0 (.row ⟨5, 0xFF000000000100, padAddr 0 0x100, 1, true, 0, 256, 64, List.replicate 32 0⟩)) ∧
      exec (.telm 5 6 10 9) s = 
        .next (s.stays 0 0 (.row ⟨5, 0xFF000000000100, padAddr 0 0x100, 65543, false, 0, 32, 92, [1, 2, 3, 4]⟩)) ∧
      exec (.trow 5 6 7 8) q = q.answers 0 seatCtx 5 4 ∧ exec (.telm 5 6 7 9) q = q.answers 0 seatCtx 5 4 := by
  and_intros <;>
    first | decide +kernel | exact next_of (by decide +kernel) | exact ⟨padAddr 0 0x100, by decide +kernel, by decide +kernel⟩

theorem wit_TileAccesses_second :
    let s := (tileSeat 1 1 0 []).setCtx 0 (rowCtx true)
    let e := (tileSeat 1 1 0 []).setCtx 0 elmCtx
    s.place (padAddr 0 0x100) = .pad 0 0x100 ∧ badIn s.bad (padAddr 0 0x100) 32 = false ∧ s.seen 0 0x100 = .opened ∧
      exec (.memoryReply 0 (.data 0)) s = .next ((((((s.poke (padAddr 0 0x140) (List.replicate 32 0xAB)).pokeHdr (padAddr 0 0x100)
        (hSeal (setField (tileHdr 1) 191 176 1))).setReg (rowCtx true) 5 256).past 0 (rowCtx true) .idle)).wake 0) ∧
      exec (.memoryReply 0 (.data 0)) e = .next ((((e.poke (padAddr 0 0x15C) [1, 2, 3, 4]).setReg elmCtx 5 0).past 0 elmCtx .idle).wake 0) ∧
      exec (.memoryReply 0 (.data 0)) (((tileSeat 2 3 0 []).setCtx 0 elmCtx)) =
        .next ((((((tileSeat 2 3 0 []).setCtx 0 elmCtx)).setReg elmCtx 5 4).past 0 elmCtx .idle).wake 0) := by
  and_intros <;> first | decide +kernel | exact next_of (by decide +kernel)

theorem wit_TileAccesses_fill_and_header :
    let s := tileSeat 1 1 0 [(7, 256)]
    let q := tileSeat 2 3 0 [(7, 0)]
    let n := tileSeat 1 0 0 [(7, 0)]
    (s.acts 0 0 seatCtx ∧ s.lets 0 seatCtx (.tfill 5 6 7) [6] false [6, 7]) ∧ s.lets 0 seatCtx (.thdr 5 6 0) [6] false [6] ∧
      s.buffer 0 seatCtx false 0xFF000000000100 s 0 0x100 ∧ s.release 0 (some (tfillScope 0 0)) = (s, true) ∧
      n.checkPart (n.whoOf 0 seatCtx) Need.load thdrWant 0xFF000000000100 32 = (n, .ok (padAddr 0 0x100)) ∧
      exec (.tfill 5 6 7) s = (s.countRows 0 0x100 none 256 true).answers 0 seatCtx 5 512 ∧
      exec (.tfill 5 6 7) q = q.answers 0 seatCtx 5 4 ∧
      exec (.thdr 5 6 0) n = n.answers 0 seatCtx 5 0x100014A37 ∧ exec (.thdr 5 6 0) q = q.answers 0 seatCtx 5 0x102014A37 := by
  and_intros <;>
    first | decide +kernel | exact next_of (by decide +kernel) | exact ⟨padAddr 0 0x100, by decide +kernel, by decide +kernel⟩

/-- A copy of one element of eight bytes, from 0x10000 to 0x10800, as a layout record at 0x400 of the scratchpad; RESUME as given. -/
def copySeat (resume : Word) (l : List (Reg × Word)) : State :=
  let a := padAddr 0 0x400
  (((((seat 0 ((6, 0xFF000000000400) :: l)).poke64 a 0x10000).poke64 (a + 8) 0x10800).poke64 (a + 16) 0x103).poke64 (a + 24) resume).poke64
    (a + 32) 1
/-- Words of eight bytes. -/
def wordBytes (l : List Word) : List Byte := (l.map (fun (v : Word) => leBytes 8 v.toNat)).flatten
/-- The words of that record. -/
def copyWords : List Word := [0x10000, 0x10800, 0x103, 0, 1] ++ List.replicate 27 0
/-- Four lines of the record. -/
def copyParts : List (Nat × Nat) := (List.range 4).map (fun i => (padAddr 0 0x400 + 64 * i, 64))
/-- A tag with n operations under way. -/
def busyTag (s : State) (t n : Nat) : State := s.setTag 0 t { Tag.zero with count := n }

theorem wit_CopiesAndQueriesAreQueued_copy :
    let s := copySeat 0 [(7, 0x305)]
    let full := s.setEngine 3 { Engine.fresh with queue := List.replicate 16 ⟨copyWords, 0, 0, 0, 1, 0, false, 0, false, 0, 0, false, [], [], none, [], []⟩ }
    (s.acts 0 0 seatCtx ∧ s.lets 0 seatCtx (.xcp 5 6 7) [7] false [6, 7]) ∧ s.xcpLate 0x305 0 = false ∧
      (match s.gather 0 seatCtx 0xFF000000000400 copyParts with | .ok q => decide (q = (s, wordBytes copyWords)) | .error _ => false) = true ∧
      exec (.xcp 5 7 6) s = s.faults 0 seatCtx (flt .align 0x305) 0 ∧
      s.checkLines (s.whoOf 0 seatCtx) Need.load xcpWant 4 0xFF000000000400 256 = (s, .ok copyParts) ∧ copyParts.find? xcpOutside = none ∧
      s.release 0 (some .sys) = (s, true) ∧ recordOk copyWords = true ∧
      exec (.xcp 5 6 7) s = ((s.setEngine 3 { s.engine 3 with queue :=
          [⟨copyWords, 0xFF000000000400, 0, 5, 1, 0, true, 1, false, 0, 0, false, [], [], none, [], []⟩], latest := some (0, 0, s.issueMark 0) }).setTag 0 5
        { Tag.zero with count := 1 }).answers 0 seatCtx 5 0x300 ∧
      exec (.xcp 5 6 7) full = full.answers 0 seatCtx 5 6 ∧
      exec (.xcp 5 6 7) (busyTag s 5 4095) = (busyTag s 5 4095).answers 0 seatCtx 5 0x106 ∧
      exec (.xcp 5 6 7) (copySeat 2 [(7, 0x305)]) = (copySeat 2 [(7, 0x305)]).faults 0 seatCtx (flt .bounds 0xFF000000000400) 0 := by
  and_intros <;> first | decide +kernel | exact next_of (by decide +kernel)

theorem wit_CopiesAndQueriesAreQueued_query :
    let s := seat 0 [(6, 0xFF000000000408), (7, 63)]
    (s.acts 0 0 seatCtx ∧ s.lets 0 seatCtx (.wdq 5 6 7) [7] false [6, 7]) ∧
      s.checkPart (s.whoOf 0 seatCtx) Need.put (wdqWant 0) 0xFF000000000408 8 = (s, .ok (padAddr 0 0x408)) ∧ s.queriesOf 0 < 1024 ∧
      exec (.wdq 5 6 7) s =
        State.answers { s.setTag 0 63 { Tag.zero with count := 1 } with co := { s.co with queries := [⟨0, 0, 0, 63, padAddr 0 0x408, 60, false, true⟩] } }
          0 seatCtx 5 0 ∧
      exec (.wdq 5 6 7) (busyTag s 63 4095) = (busyTag s 63 4095).answers 0 seatCtx 5 0x106 := by
  and_intros <;> first | decide +kernel | exact next_of (by decide +kernel)

theorem wit_CompletionTags :
    let s := busyTag (seat 0 [(6, 63), (7, 0x8000000000000001)]) 0 1
    let g : Tag := ⟨2, true, 0x11, 0x22, 0x33, 0x44⟩
    let q := s.setTag 0 63 g
    (s.acts 0 0 seatCtx ∧ s.lets 0 seatCtx (.ctwait 5 6) [7] false [6]) ∧ s.lets 0 seatCtx (.ctany 5 7) [7] false [7] ∧
      s.lets 0 seatCtx (.ctff 5 6) [7] false [6] ∧ s.lets 0 seatCtx (.ctrd 5 6 4) [7] false [6] ∧
      exec (.ctwait 5 6) s = .next (((s.setReg seatCtx 5 0).acquire 0 .sys).past 0 seatCtx .idle) ∧
      exec (.ctwait 5 0) s = .next (s.past 0 seatCtx (.waiting (.tag 5 0))) ∧
      exec (.ctwait 5 6) q = .next ((q.setReg seatCtx 5 g.packed).past 0 seatCtx .idle) ∧
      exec (.ctany 5 0) s = .next (s.gives 0 seatCtx 5 64) ∧
      exec (.ctany 5 7) q = .next ((q.setReg seatCtx 5 (word (63 + 65536 * g.packed.toNat))).past 0 seatCtx .idle) ∧
      exec (.ctany 5 7) (busyTag s 63 1) = .next ((busyTag s 63 1).past 0 seatCtx (.waiting (.anyTag 5 0x8000000000000001))) ∧
      exec (.ctff 5 6) q = .next (((q.setReg seatCtx 5 g.packed).setTag 0 63 ⟨2, false, 0, 0, 0, 0⟩).past 0 seatCtx .idle) ∧
      exec (.ctrd 5 6 4) q = .next (q.gives 0 seatCtx 5 0x44) ∧ exec (.ctrd 5 6 1) q = .next (q.gives 0 seatCtx 5 0x11) := by
  and_intros <;> first | decide +kernel | exact next_of (by decide +kernel)

/-- A queue of two entries of eight bytes, generation 7, with its ring at 0x10800 and its descriptor at 0x10200; HEAD and TAIL as given, and what
its ring holds in its entry 1. -/
def queueSeat (head tail : Word) (l : List (Reg × Word)) : State :=
  (((((seat 0 ((6, 0x7000000010200) :: l)).poke64 0x10200 0x10800).poke64 0x10208 0x7000000000401).poke64 0x10210 head).poke64 0x10218
    tail).poke64 0x10808 0x77

theorem wit_HardwareQueues :
    let s := queueSeat 0xFFFFFFFFFFFFFFFF 0xFFFFFFFFFFFFFFFF [(7, 0xFF000000000100), (8, 0x8000000010200)]
    let q := queueSeat 3 5 [(7, 0xFF000000000100), (8, 0x8000000010200)]
    (s.acts 0 0 seatCtx ∧ s.lets 0 seatCtx (.enq 5 6 7 .e8) [] false [6, 7]) ∧ s.lets 0 seatCtx (.deq 5 6 7 .e8) [] false [6, 7] ∧
      s.lets 0 seatCtx (.qinfo 5 6) [] false [6] ∧ s.qFind (s.whoOf 0 seatCtx) true 0x7000000010200 = (s, .ok 0x10200) ∧
      s.ringAway (s.whoOf 0 seatCtx) [] true 0x7000000010200 8 = none ∧ q.probe seatCtx 0xFF000000000100 1 [(padAddr 0 0x100, 8)] = none ∧
      q.ringAway (q.whoOf 0 seatCtx) [] false 0x7000000010200 8 = none ∧ memWf s.mem = true ∧ (qRead s 0x10200).usable = true ∧ (qRead s 0x10200).gen = 7 ∧ (qRead s 0x10200).size = 8 ∧
      q.checkAccess (q.whoOf 0 seatCtx) Need.put anyPlace 0xFF000000000100 8 = (q, .ok [(padAddr 0 0x100, 8)]) ∧
      exec (.enq 5 6 7 .e8) s = (((s.poke 0x10808 (List.replicate 8 0)).poke64 0x10218 0).answers 0 seatCtx 5 0) ∧
      exec (.enq 5 6 7 .e8) q = q.answers 0 seatCtx 5 1 ∧ exec (.enq 5 8 7 .e8) q = q.answers 0 seatCtx 5 3 ∧
      exec (.deq 5 6 7 .e8) s = s.answers 0 seatCtx 5 8 ∧ exec (.deq 5 8 7 .e8) s = s.answers 0 seatCtx 5 3 ∧
      exec (.deq 5 6 7 .e8) q =
        (((q.poke64 0x10210 4).poke (padAddr 0 0x100) [0x77, 0, 0, 0, 0, 0, 0, 0]).setReg seatCtx 5 0).replyTo 0 seatCtx ∧
      exec (.qinfo 5 6) q = q.answers 0 seatCtx 5 512 ∧ exec (.qinfo 5 8) q = q.answers 0 seatCtx 5 3 := by
  and_intros <;> first | decide +kernel | exact next_of (by decide +kernel)

/-- That queue with a LIMIT of one entry, and its OVF, with an overflow queue of generation 9 at 0x10300; TAIL as given. -/
def limitSeat (ovf tail : Word) : State :=
  (((((queueSeat 3 4 [(7, 0xFF000000000100)]).poke64 0x10220 1).poke64 0x10228 ovf).poke64 0x10300 0x10A00).poke64 0x10308
    0x9000000000401).poke64 0x10318 tail

theorem wit_HardwareQueues_overflow :
    let a := limitSeat 0 0
    let s := limitSeat 0x9000000010300 1
    let f := limitSeat 0x9000000010300 2
    let z := limitSeat 0x8000000010300 0
    let w := s.whoOf 0 seatCtx
    let q := qRead s 0x10200
    q.usable = true ∧ q.gen = 7 ∧ q.size = 8 ∧ q.limit = 1 ∧ q.limit ≤ q.count ∧ s.qFind w true q.ovf = (s, .ok 0x10300) ∧
      (qRead s 0x10300).usable = true ∧ (qRead s 0x10300).gen = 9 ∧ (qRead s 0x10300).size = 8 ∧ (qRead s 0x10300).count = 1 ∧
      s.qRing w true 0x10A08 8 = (s, .ok [(0x10A08, 8)]) ∧ s.away 0x10A08 = false ∧
      (let r := s.enqAt w 0x7000000010200 8 [1, 2, 3, 4, 5, 6, 7, 8] 0x10200
       (r.2 = .ok ⟨2, 0x8000000000000001⟩ ∧ r.1.peek64 0x10318 = 2) ∧ memRead r.1.mem 0x10A08 8 = [1, 2, 3, 4, 5, 6, 7, 0x88]) ∧
      (a.enqAt w 0x7000000010200 8 [] 0x10200).2 = .ok ⟨513, 0⟩ ∧ (f.enqAt w 0x7000000010200 8 [] 0x10200).2 = .ok ⟨257, 0⟩ ∧
      (z.enqAt w 0x7000000010200 8 [] 0x10200).2 = .ok ⟨259, 0⟩ ∧
      (s.enqAt w 0x7000000010200 16 [] 0x10200).2 = .fault (flt .bounds 0x7000000010200) ∧
      exec (.enq 5 6 7 .e8) a = a.answers 0 seatCtx 5 513 ∧ exec (.enq 5 6 7 .e16) a = a.faults 0 seatCtx (flt .bounds 0x7000000010200) 0 := by
  and_intros <;> first | decide +kernel | exact next_of (by decide +kernel)

/-- A future cell at 0x30000, in a page of futures, full or not; a second context waits for it. -/
def futureSeat (full : Word) (l : List (Reg × Word)) : State :=
  let s := ((seat 0 ((6, 0x30000) :: l)).poke64 0x30000 0x99).poke64 0x30008 full
  let w : Ctx := { seatCtx with wp := word (wsAddr 0 1), st := .waiting (.future 8 0x30000) }
  { (s.setCore 0 { s.core 0 with tlb := ⟨1, 3, 16, 0x3005F⟩ :: (s.core 0).tlb }).setCtx 1 w with deferrals := [⟨1, 0x30000⟩] }

theorem wit_FutureCells :
    let s := futureSeat 0 [(7, 5)]
    let f := futureSeat 1 [(7, 5)]
    (s.acts 0 0 seatCtx ∧ s.lets 0 seatCtx (.ldf 8 6) [] false [6]) ∧ s.lets 0 seatCtx (.ldfNw 8 6) [] false [6] ∧
      s.lets 0 seatCtx (.stf 5 6 7) [] false [6, 7] ∧ s.lets 0 seatCtx (.fclr 5 6) [] false [6] ∧
      s.cell (s.whoOf 0 seatCtx) { r := true, w := false, fut := true } 0x30000 = (s, .ok 0x30000) ∧
      s.cell (s.whoOf 0 seatCtx) { r := false, w := true, fut := true } 0x30000 = (s, .ok 0x30000) ∧ s.release 0 (some .pkg) = (s, true) ∧
      s.reach 0 (some (.ctx 0)) false 0x30000 16 = (s, true) ∧ s.reach 0 (some (.ctx 0)) true 0x30000 16 = (s, true) ∧ s.forget 0 0x30000 16 = s ∧
      s.deferRoom 0x30000 = true ∧ memWf s.mem = true ∧ (s.ctx? 1).map (·.st) = some (.waiting (.future 8 0x30000)) ∧
      (s.fill 0x30000 5).1.deferrals = [] ∧ (s.fill 0x30000 5).1.peek64 0x30008 = 1 ∧ (s.fill 0x30000 5).1.peek64 (wsAddr 0 1 + 64) = 5 ∧
      exec (.ldf 8 6) f = (((f.setReg seatCtx 8 0x99).setReg seatCtx 9 0).acquire 0 .pkg).replyTo 0 seatCtx ∧
      exec (.ldf 8 6) s = .next ((State.count { s with deferrals := [⟨1, 0x30000⟩, ⟨0, 0x30000⟩] } (.die 0 1) 4 1).past 0 seatCtx
        (.waiting (.future 8 0x30000))) ∧
      exec (.ldfNw 8 6) s = s.answers 0 seatCtx 9 8 ∧ exec (.stf 5 6 7) f = f.answers 0 seatCtx 5 1 ∧
      exec (.stf 5 6 7) s = (s.fill 0x30000 5).1.answers 0 seatCtx 5 0 ∧ ((s.fill 0x30000 5).1.ctx? 1).map (·.st) = some .idle ∧
      exec (.fclr 5 6) f = (f.poke 0x30000 (List.replicate 16 0)).answers 0 seatCtx 5 0 := by
  and_intros <;> first | decide +kernel | exact next_of (by decide +kernel)

/-- A task queue with room for n records in the crew's cluster. -/
def roomFor (n : Nat) (s : State) : State := s.setCluster 0 { s.cluster 0 with tq := { (s.cluster 0).tq with qcap := n } }
/-- The continuation word of the context names a join cell at 0x10300. -/
def joinSeat (count : Word) : State := ((seat 0 []).poke64 (wsAddr 0 0) (0x103 * 2 ^ 16)).poke64 0x10300 count

theorem wit_TasksSpawnSuspendAndEnd :
    let s := seat 0 [(6, 0xFF000000000400), (7, 0)]
    let r := roomFor 4 s
    let j := joinSeat 1
    (s.acts 0 0 seatCtx ∧ s.lets 0 seatCtx (.spawn 5 6) [] false [6]) ∧ s.lets 0 seatCtx (.spawnPeer 5 6 7) [] false [6, 7] ∧
      s.lets 0 seatCtx (.susp 5 6) [] false [6] ∧ s.lets 0 seatCtx (.suspRequeue 5) [] false [] ∧ s.lets 0 seatCtx .endTask [] false [] ∧
      (s.reg seatCtx 7).toNat < s.spansizeOf 0 ∧
      s.checkPart (s.whoOf 0 seatCtx) Need.put anyPlace 0xFF000000000400 64 = (s, .ok (padAddr 0 0x400)) ∧
      s.release 0 (some .crew) = (s, true) ∧ s.release 0 (some .pkg) = (s, true) ∧ (r.tqPush 0 (List.replicate 64 0)).isSome = true ∧
      exec (.spawn 5 6) s = s.answers 0 seatCtx 5 1 ∧ exec (.spawnPeer 5 6 7) s = s.answers 0 seatCtx 5 1 ∧
      exec (.suspRequeue 5) s = s.answers 0 seatCtx 5 1 ∧
      exec (.susp 5 6) s = .next (((s.setReg seatCtx 5 0).poke (padAddr 0 0x400)
        ((s.setReg seatCtx 5 0).backRecord seatCtx 0x10004 false)).leave 0 seatCtx false) ∧
      exec .endTask s = .next (s.leave 0 seatCtx true) ∧
      j.checkPart (j.whoOf 0 seatCtx) Need.step joinWant 0x10300 16 = (j, .ok 0x10300) ∧ j.reach 0 (some (.ctx 0)) true 0x10300 16 = (j, true) ∧
      exec .endTask j = .next (((j.poke64 0x10300 0).acquire 0 .pkg).leave 0 seatCtx true) ∧ SMap.wf s.ctxs = true := by
  and_intros <;> first | decide +kernel | exact next_of (by decide +kernel)

theorem wit_TasksSpawnSuspendAndEnd_places :
    let s := withPadOf3 (seat 0 [(6, 0x20000)])
    let q := s.modCtx 0 (fun y => { y with st := .remote ⟨0, 0x20000, 1, 3 * Config.localEnd + Config.padBase, 0, [], [], .suspend 5, false⟩, iw := 0 })
    let pa := 3 * Config.localEnd + Config.padBase
    let r := wordBytes [1, 2, 3, 4, 5, 6, 7, 3]
    let z := roomFor 4 (seat 0)
    let y := (z.tqPush 0 r).getD z
    (s.acts 0 0 seatCtx ∧ s.lets 0 seatCtx (.susp 5 6) [] false [6]) ∧
      s.checkPart (s.whoOf 0 seatCtx) Need.put anyPlace 0x20000 64 = (s, .ok pa) ∧ s.awayPad pa = true ∧ s.release 0 (some .pkg) = (s, true) ∧
      ((after (exec (.susp 5 6) s)).ctx? 0).map (·.st) = (q.ctx? 0).map (·.st) ∧
      (z.tqPush 0 r).isSome = true ∧ memWf z.mem = true ∧ r.length = 64 ∧ (z.cluster 0).tq.free < (z.cluster 0).tq.qcap ∧
      ((y.cluster 0).tq.lane 3).count = 1 := by
  and_intros <;> decide +kernel

/-- The context's span as group 0: one member. -/
def groupOne : Group := ⟨none, [⟨0, 0, 0, true⟩]⟩
/-- Group 1 stands at 0x10040 with the crew as its member, its phase 4 and nothing arrived; the core holds its lines. -/
def descSeat (l : List (Reg × Word)) : State :=
  let s := ((((seat 0 ((6, 0x100000000) :: l)).poke64 0x10040 0x8000000000000001).poke64 0x10048 0x10900).poke64 0x10058 4).setCtx 0
    { seatCtx with gtb := 0x10000 }
  s.setCore 0 { s.core 0 with l1d := [(0x401, s.lineAt 0x401), (0x424, s.lineAt 0x424)] }
/-- Its context. -/
def groupCtx : Ctx := { seatCtx with gtb := 0x10000 }
/-- The span of the crew placed. -/
def theSpan : Span := ⟨0, 1, [⟨0, false⟩], none, 0, 0, 0, 0, 0, false⟩

/-- A group resolved without a fault, as a truth value. -/
def resolved (r : Except Exec (State × Group)) (q : State × Group) : Bool := match r with | .ok p => decide (p = q) | .error _ => false

theorem resolved_of {r : Except Exec (State × Group)} {q : State × Group} (h : resolved r q = true) : r = .ok q := by
  cases r <;> simp_all [resolved]

theorem wit_GroupsAndBarriers_glean :
    let s := seat 0 [(6, 0x7FFFF8), (7, 0x3F00000000000440), (8, 0x7FFFC0)]
    let q : Gldm := ⟨0, 1, 0, .xor, 0x7FFFC0, [⟨0, 0, 0, true⟩], [], 0, 0x440, 63, true⟩
    (s.acts 0 0 seatCtx ∧ s.lets 0 seatCtx (.gld 5 6 .addD) [4, 5] false [6]) ∧ s.lets 0 seatCtx (.gldm 5 8 7 .xor) [4] false [8, 7] ∧
      s.lets 0 seatCtx (.gst 5 6 8 .d) [4] false [6, 8] ∧ s.release 0 (some .crew) = (s, true) ∧
      s.resolve 0 seatCtx 0x7FFFF8 = .ok (s, groupOne) ∧ s.groupScope 0 groupOne = .crew ∧ s.unreadAway groupOne.members [] = [] ∧
      guardedIn (s.cluster 0) 0x440 64 = none ∧
      exec (.gld 5 6 .addD) s = .next (s.stays 0 0 (.glean 5 .addD 0x7FFFF8 groupOne.members [])) ∧
      exec (.gldm 5 8 7 .xor) s = State.answers { busyTag s 63 1 with gldms := [q] } 0 seatCtx 5 0 ∧
      exec (.gldm 5 8 7 .xor) (busyTag s 63 4095) = (busyTag s 63 4095).answers 0 seatCtx 5 0x106 ∧
      exec (.gst 5 6 8 .d) s = (s.poke64 (padAddr 0 0x7FFFF8) 0x7FFFC0).answers 0 seatCtx 5 (gstWord
        (gstHere 1 (some 0) 0x7FFFF8 (leBytes 8 0x7FFFC0) groupOne.members s).2) := by
  and_intros <;>
    first | decide +kernel | exact resolved_of (by decide +kernel) | exact next_of (by decide +kernel)

theorem wit_GroupsAndBarriers_span :
    let s := seat 0 [(6, 0), (7, 0x100)]
    (s.acts 0 0 seatCtx ∧ s.lets 0 seatCtx (.garr 5 6) [4] false [6]) ∧ s.lets 0 seatCtx (.gwait 5 6 7) [4] false [6, 7] ∧
      s.span? (s.spanOf 0) = some theSpan ∧ s.release 0 (some .crew) = (s, true) ∧
      exec (.garr 5 6) s = (((s.setSpan { theSpan with phase := 1 }).setReg seatCtx 5 0).answerGroup none 0 1).replyTo 0 seatCtx ∧
      exec (.gwait 5 6 7) s = ((s.setReg seatCtx 5 0).acquire 0 .crew).replyTo 0 seatCtx ∧
      exec (.gwait 5 6 0) s = .next ((State.count { s with co := { s.co with deferred0 := [⟨0, 0⟩] } } (.die 0 1) 4 1).past 0 seatCtx
        (.waiting (.phase 5 none 0 0))) := by
  and_intros <;> first | decide +kernel | exact next_of (by decide +kernel)

theorem wit_GroupsAndBarriers_descriptor :
    let s := descSeat [(7, 0x400)]
    (s.acts 0 0 groupCtx ∧ s.lets 0 groupCtx (.garr 5 6) [4] false [6]) ∧ s.lets 0 groupCtx (.gwait 5 6 7) [4] false [6, 7] ∧
      s.resolve 0 groupCtx 0x100000000 = .ok (s, ⟨some 0x10040, [⟨0, 0, 0, true⟩]⟩) ∧ s.release 0 (some .crew) = (s, true) ∧
      s.checkPart (s.whoOf 0 groupCtx) Need.step hbmOnly 0x10040 64 = (s, .ok 0x10040) ∧ s.reach 0 (some (.ctx 0)) true 0x10040 64 = (s, true) ∧
      s.checkPart (s.whoOf 0 groupCtx) Need.load hbmOnly 0x10040 64 = (s, .ok 0x10040) ∧ s.reach 0 (some (.ctx 0)) false 0x10040 64 = (s, true) ∧
      s.deferRoom 0x10040 = true ∧
      exec (.garr 5 6) s = (((((s.forget 0 0x10040 64).poke64 0x10058 5).poke64 0x10060 0).setReg groupCtx 5 0x400).answerGroup (some 0x10040) 0 5).replyTo 0 groupCtx ∧
      exec (.gwait 5 6 0) s = ((s.setReg groupCtx 5 0x400).acquire 0 .crew).replyTo 0 groupCtx ∧
      exec (.gwait 5 6 7) s = .next ((State.count { s.forget 0 0x10040 64 with deferrals := [⟨0, 0x10040⟩] } (.die 0 1) 4 1).past 0 groupCtx
        (.waiting (.phase 5 (some 0x10040) 0 4))) := by
  and_intros <;>
    first | decide +kernel | exact resolved_of (by decide +kernel) | exact next_of (by decide +kernel)

/-- Group 1 with two members, of devices 3 and 4, of which a route reaches the first. -/
def awaySeat : State :=
  let s := ((descSeat [(7, 9)]).poke64 0x10040 0x8000000000000002).poke64 0x10900 0x40000000300
  let t := s.setCore 0 { s.core 0 with l1d := [(0x401, s.lineAt 0x401), (0x424, s.lineAt 0x424)] }
  { t with io := { t.io with routes := [(3, 0x8000)] } }

theorem wit_GroupsAndBarriers_away :
    let s := awaySeat
    let ms : List Member := [⟨0, 0, 3, true⟩, ⟨1, 0, 4, true⟩]
    let t := after (exec (.gst 5 6 7 .d) s)
    let u := after (exec (.gld 5 6 .addD) s)
    (s.acts 0 0 groupCtx ∧ s.lets 0 groupCtx (.gst 5 6 7 .d) [4] false [6, 7]) ∧ s.lets 0 groupCtx (.gld 5 6 .addD) [4, 5] false [6] ∧
      s.resolve 0 groupCtx 0x100000000 = .ok (s, ⟨some 0x10040, ms⟩) ∧ s.reached ms = [⟨0, 0, 3, true⟩] ∧
      s.release 0 (some (s.groupScope 0 ⟨some 0x10040, ms⟩)) = (s, true) ∧ s.unroutedReads ms = [⟨1, 0, some Code.xlateProt.num⟩] ∧
      (t.ctx? 0).map (·.st) = some (.gst 5 [⟨0, 0, 3, true⟩] [1]) ∧
      (u.ctx? 0).map (·.st) = some (.glean 5 .addD 0x100000000 ms [⟨1, 0, some Code.xlateProt.num⟩]) ∧ t.io.sent.length = 1 := by
  and_intros <;>
    first | decide +kernel | exact resolved_of (by decide +kernel)

theorem wit_IntegerTreesAreSums :
    let v : List (Option Word) := [some 3, none, some 0xFFFFFFFFFFFFFFFF, some 9, none]
    v.length ≤ 1024 ∧ gleanTree .addL 11 v = 11 ∧ gleanTree .and 11 v = 1 ∧ gleanTree .xor 11 v = (3 ^^^ 0xFFFFFFFFFFFFFFFF ^^^ 9) ∧
      (List.replicate 128 (5 : Word32)).length = 128 ∧ laneTree (· + ·) 0 7 (presentLanes 7 0 (List.replicate 128 5)) = (15 : Word32) := by
  decide +kernel

/-- 02 R50, R54; 08 R197, R198: a tie goes to the even code, a sum past the largest number overflows, and the trees pair neighbours. -/
theorem wit_IntegerTreesAreSums_rounding :
    let one : XVal := .fin false 1 0
    let far : XVal := .fin true 3 (-1)
    fp32.decode 0x3F800000 = .fin false 0x800000 (-23) ∧ (0 : Nat) < 4 ∧ fp32 ∈ [fp64, fp32, bf16, fp16, e5m2, e4m3, fp4] ∧
      fp32.round 0 (.fin false 0x1000001 0) = (0x4B800000, 1) ∧ fp32.round 0 (.fin false 0x1000003 0) = (0x4B800002, 1) ∧
      fp32.round 3 (.fin true 0x1000001 0) = (0xCB800001, 1) ∧ (fp32.round 0 (.fin false 1 128)).2.testBit 2 = true ∧
      ([[one], [far]] : List (List XVal)) ≠ [] ∧ ((([[one], [far]] : List (List XVal)).take 16).flatten) = [.fin false 1 0, .fin true 3 (-1)] ∧
      groupSum [[one], [far]] 0 (fun _ => one) (fun _ => one) 2 0x40000000 = 0x3FC00000 ∧
      gleanTree .addW 11 [some 0x1FFFFFFFF, none, some 0x300000002] = 0x400000001 ∧
      gleanTree .minW 11 [some 0x80000000, none] = 0x80000000 ∧ gleanTree .maxW 11 [none, none] = 0x8000000080000000 ∧
      gleanTree .addS 11 [some 0x4B800000, some 0x3F800000, some 0x3F800000] = 0x4B800000 := by decide +kernel

/-- The members of the group of the next test. -/
def gleanMembers : List Member := [⟨0, 0, 0, true⟩, ⟨1, 1, 0, false⟩, ⟨2, 2, 0, true⟩]
/-- A context whose GLD has made the reads given. -/
def gleanCtx (got : List MemberRead) : Ctx := { seatCtx with st := .glean 5 .addL 0x100 gleanMembers got, iw := 0x12345678 }

theorem wit_GleanLoadsEnd :
    let x := gleanCtx [⟨0, 7, none⟩, ⟨2, 8, none⟩]
    let y := gleanCtx [⟨2, 0, some 5⟩, ⟨0, 0, some 14⟩]
    let good := (seat 0 []).setCtx 0 x
    let poor := (seat 0 []).setCtx 0 y
    good.ctx? 0 = some x ∧ good.unreadHere gleanMembers [⟨0, 7, none⟩, ⟨2, 8, none⟩] = [] ∧
      good.unreadAway gleanMembers [⟨0, 7, none⟩, ⟨2, 8, none⟩] = [] ∧
      exec (.memoryReply 0 .here) good = .next ((((good.setReg x 5 15).acquire 0 (good.groupScope 0 ⟨none, gleanMembers⟩)).past 0 x .idle).wake 0) ∧
      exec (.memoryReply 0 .here) poor = .next (takeTrap poor 0 y ⟨15, 0x100, 14, 0, false, 0⟩ 0x12345678) := by
  and_intros <;> first | decide +kernel | exact next_of (by decide +kernel)

/-- The context of slot 0 at user level. -/
def userCtx : Ctx := { seatCtx with level := .user }

theorem wit_SystemInstructions :
    let s := (seat 0 [(6, 0xFFFF), (7, 0xFFFFFFFFFFFFFFFF)]).setCtx 0 { seatCtx with events := 6 }
    let x : Ctx := { seatCtx with events := 6 }
    (s.acts 0 0 x ∧ s.lets 0 x (.evsend 6 7) [] false [6, 7]) ∧ s.lets 0 x (.wait 5 7) [] false [7] ∧ s.lets 0 x (.yield 7) [] false [7] ∧
      s.lets 0 x (.rdsr 5 .trappc) [] SysReg.trappc.supervisor [] ∧ s.lets 0 x (.wrsr 7 .fcsr) [] SysReg.fcsr.supervisor [7] ∧
      s.lets 0 x .nop [] false [] ∧ s.release 0 (some .pkg) = (s, true) ∧
      exec (.evsend 6 7) s = (s.sendBits 1 0xFFFF 0xFFFFFFFFFFFFFFFF).replyTo 0 x ∧
      exec (.wait 5 7) s = .next ((((s.setCtx 0 { x with events := 0 }).setReg x 5 6).acquire 0 .pkg).past 0 x .idle) ∧
      exec (.wait 5 0) s = .next (s.gives 0 x 5 0) ∧
      exec (.wait 5 7) (s.setCtx 0 seatCtx) = .next ((s.setCtx 0 seatCtx).past 0 seatCtx (.waiting (.event 5 0xFFFFFFFFFFFFFFFF))) ∧
      exec (.yield 7) s = .next (s.past 0 x (.yielding 65543)) ∧ exec (.yield 0) s = .next (s.past 0 x (.yielding 8)) ∧
      exec (.rdsr 5 .tvbase) s = .next (s.gives 0 x 5 0x20000) ∧
      exec (.wrsr 7 .fcsr) s = .next ((s.setCtx 0 { x with fcsr := 0x7F }).past 0 x .idle) ∧ exec .nop s = .next (s.past 0 x .idle) := by
  and_intros <;> first | decide +kernel | exact next_of (by decide +kernel)

theorem wit_SystemInstructions_events :
    let y : Ctx := { seatCtx with events := 8 }
    let w : Ctx := { seatCtx with events := 8, st := .waiting (.event 5 6) }
    let s := (seat 0).setCtx 0 y
    let z := (seat 0).setCtx 0 w
    s.ctx? 0 = some y ∧ z.ctx? 0 = some w ∧ y.region = 1 ∧ memWf z.mem = true ∧ (s.sendBits 2 0 6).ctxs = s.ctxs ∧
      (s.sendBits 1 0 6).ctx? 0 = some { y with events := 14 } ∧ (z.sendBits 1 0 1).ctx? 0 = some { w with events := 9 } ∧
      (z.sendBits 1 0 3).ctx? 0 = some { y with events := 9 } ∧ (z.sendBits 1 0 3).peek64 (wsAddr 0 0 + 40) = 2 := by decide +kernel

theorem wit_TrapTakesItsException :
    let s := seat 0x2C00001F
    let u := s.setCtx 0 userCtx
    (s.acts 0 0x2C00001F seatCtx ∧ s.lets 0 seatCtx (.trap 31) [] false []) ∧ (u.acts 0 0x2C00001F userCtx ∧ u.lets 0 userCtx (.trap 31) [] false []) ∧
      seatCtx.level = .supervisor ∧ seatCtx.pc ≠ seatCtx.tvbase ∧ userCtx.level = .user ∧
      exec (.trap 31) s = .next (s.setCtx 0 { seatCtx with trappc := 0x10000, trapinfo := 0x122C00001F, trapaddr := 0, pc := 0x20000 }) ∧
      exec (.trap 31) u = .next (u.dispatch 0 userCtx ⟨18, 0, 0, 0, false, 0⟩ 0x2C00001F false) := by
  and_intros <;> first | decide +kernel | exact next_of (by decide +kernel)

theorem wit_EretReturns :
    let x : Ctx := { seatCtx with trappc := 0x12347 }
    let s := (seat 0).setCtx 0 x
    let u := s.setCtx 0 userCtx
    (s.acts 0 0 x ∧ s.lets 0 x .eret [] true []) ∧ u.acts 0 0 userCtx ∧
      exec .eret s = .next (s.setCtx 0 { x with pc := 0x12344 }) ∧ exec .eret u = u.faults 0 userCtx (flt .priv 0x10000) 0 := by
  and_intros <;> first | decide +kernel | exact next_of (by decide +kernel)

theorem wit_TakingAFault :
    let y : Ctx := { seatCtx with pc := 0x20000 }
    let s := seat 0
    let u := s.setCtx 0 userCtx
    let full := u.setCluster 0 { u.cluster 0 with handlers := List.replicate 256 ⟨none, 0, 0, 0, 0⟩ }
    s.ctx? 0 = some seatCtx ∧ seatCtx.level = .supervisor ∧ seatCtx.pc ≠ seatCtx.tvbase ∧ y.pc = y.tvbase ∧
      takeTrap (s.setCtx 0 y) 0 y (flt .priv 0x20000) 0 = (((s.setCtx 0 y).fails 0).dispatch 0 y (flt .priv 0x20000) 0 true).freezeCrew 0 ∧
      seatCtx.granted = [] ∧ s.fails 0 = s.setCtx 0 { seatCtx with mark := none } ∧
      (u.release 0 (some .pkg)).2 = true ∧ (u.cluster 0).handlers.length < 256 ∧ full.dispatch 0 userCtx (flt .priv 0x10000) 0 false =
        full.modCtx 0 (fun y => { y with st := .waiting (.dispatch (flt .priv 0x10000) 0 0 false), mark := some (full.issuedAt 0) }) ∧ 256 ≤ (full.cluster 0).handlers.length ∧ (takeTrap s 0 seatCtx (flt .priv 0x10000) 0).ctx? 0 =
        some { seatCtx with trappc := 0x10000, trapinfo := trapInfo (flt .priv 0x10000) 0, trapaddr := 0x10000, pc := 0x20000 } := by
  decide +kernel

theorem wit_WhatFaultsBeforeItsEffect :
    let s := seat 0xFFFFFFFF [(6, 0)]
    let u := s.setCtx 0 userCtx
    let off := { s with ctl := { s.ctl with featGrant := 1 } }
    let b := { State.reset.seatBundle 0 with turns := [], actor := .mx 0 .mx0 .alone 0 }
    let p := s.setCore 0 { s.core 0 with tlb := [⟨1, 1, 16, word 0x1000F⟩] }
    (s.acts 0 0xFFFFFFFF seatCtx ∧ s.ctx? 0 = some seatCtx) ∧ (off.feat 0).getLsbD 7 = false ∧ (off.feat 0).getLsbD 6 = false ∧
      ¬ (Instr.fence .pkg .none).WellFormed ∧ ¬ (Instr.lq 5 6 0).WellFormed ∧ ¬ (Instr.wrsr 6 .cycle).WellFormed ∧
      (Instr.wrsr 6 .trappc).WellFormed ∧ (b.mx 0 .mx0).st = .run ∧
      (match (b.mx 0 .mx0).fetch with | .error q => decide (q = (0, ⟨1, 0, 0, 0, false, 0⟩)) | .ok _ => false) = true ∧
      exec .illegalBundle b = .next (b.mxFault 0 .mx0 0 ⟨1, 0, 0, 0, false, 0⟩) ∧
      (p.fetch 0 seatCtx).2 = .failed (flt .xlateProt 0x10000 1 2) ∧
      exec .fetchFault p = ((p.fetch 0 seatCtx).1.dropWaits 0).faults 0 seatCtx (flt .xlateProt 0x10000 1 2) 0 ∧
      swarmNeeds (.xcp 5 6 6) = ([7], false) ∧ (swarmNeeds (.wrsr 6 .trappc)).2 = true ∧
      exec (.illegalWord 0xFFFFFFFF) s = s.faults 0 seatCtx (flt .illegal 0x10000) 0xFFFFFFFF ∧
      exec (.fence .pkg .none) s = s.faults 0 seatCtx (flt .illegal 0x10000) 0xFFFFFFFF ∧
      exec (.rdsr 5 .trappc) u = u.faults 0 userCtx (flt .priv 0x10000) 0xFFFFFFFF ∧
      exec (.wrsr 6 .trappc) u = u.faults 0 userCtx (flt .priv 0x10000) 0xFFFFFFFF ∧
      exec (.xcp 5 6 6) off = off.faults 0 seatCtx (flt .featAbsent 0x10000) 0xFFFFFFFF ∧
      exec (.topen 5 6 6) off = off.faults 0 seatCtx (flt .featAbsent 0x10000) 0xFFFFFFFF := by
  and_intros <;> first | decide +kernel | exact next_of (by decide +kernel)

/-- mx0 of cluster 0 with its bundle issuing, in one of the phases of an op; its registers set as given. -/
def unit (ph : Phase) (f : Mx → Mx) : State :=
  let s := State.reset.seatBundle 0
  { s.setMx 0 .mx0 (f { s.mx 0 .mx0 with shelf := [] }) with turns := [], actor := .mx 0 .mx0 ph 0 }

theorem wit_MxVectorAndScalarOps :
    let s := unit .perform (fun m => { m with v := [(1, List.replicate 128 0xFFFFFFFF)], p := [(2, 5)], s := [(1, 0x80000001), (2, 0xFF)], count := 9 })
    let c := { s with actor := .mx 0 .mx0 .check 0 }
    let m := s.mx 0 .mx0
    s.performs 0 .mx0 0 (.vadd 2 1 1 .w (some 2)) ∧ (m.vlanes 1).length = 128 ∧ (m.vlanes 0).length = 128 ∧
      s.performs 0 .mx0 0 (.sshl 3 1 2) ∧ s.performs 0 .mx0 0 (.vreds 3 1 .w (some 2)) ∧ s.performs 0 .mx0 0 (.vcmp 1 1 0 .lt .w none) ∧
      (laneForm m (.vadd 2 1 1 .w (some 2))).isSome = true ∧ scalarForm m (.sshl 3 1 2) = some (3, 0x40000000) ∧
      (reduceForm (.vreds 3 1 .w (some 2))).isSome = true ∧
      exec (.vadd 2 1 1 .w none) s = .next (s.later 0 .mx0 2 (.v 2 (BitVec.allOnes 128) (List.replicate 128 0xFFFFFFFE))) ∧
      exec (.sshl 3 1 2) s = .next (s.later 0 .mx0 1 (.s 3 0x40000000)) ∧
      exec (.vreds 3 1 .w (some 2)) s = .next (s.later 0 .mx0 6 (.s 3 0xFFFFFFFE)) ∧
      exec (.vcmp 1 1 0 .lt .w none) s = .next (s.later 0 .mx0 2 (.p 1 (BitVec.allOnes 128) (BitVec.allOnes 128))) ∧
      exec (.vadd 2 1 1 .w none) c = .next c := by
  and_intros <;> first | decide +kernel | exact next_of (by decide +kernel) | exact .inl rfl

theorem wit_MxVectorAndScalarMemory :
    let s := (unit .perform (fun m => { m with v := [(1, List.replicate 128 300)], p := [(2, 1)], s := [(1, 0x7FFE00), (3, 0x1234)] })).poke
      (padAddr 0 0x7FFFFC) [1, 2, 3, 4]
    s.performs 0 .mx0 0 (.vld 2 1 0 .x32 none) ∧ s.performs 0 .mx0 0 (.vst 1 1 0 .bu (some 2)) ∧ s.performs 0 .mx0 0 (.sld 4 1 0x1FC) ∧
      s.performs 0 .mx0 0 (.sst 3 1 0x1FC) ∧ s.laneReadBad 0 0x7FFE00 (BitVec.allOnes 128) 4 = [] ∧ memWf s.mem = true ∧
      guardedLanes (s.cluster 0) 1 1 128 0 0x7FFE00 = none ∧ s.laneWriteBad 0 0x7FFE00 1 1 = [] ∧ guardedIn (s.cluster 0) 0x7FFFFC 4 = none ∧
      exec (.vld 2 1 0 .x32 none) s = .next (s.later 0 .mx0 4 (.v 2 (BitVec.allOnes 128) (List.replicate 127 0 ++ [0x04030201]))) ∧
      exec (.vst 1 1 0 .bu (some 2)) s = .next (s.poke (padAddr 0 0x7FFE00) [255]) ∧
      exec (.sld 4 1 0x1FC) s = .next ((s.later 0 .mx0 1 (.s 4 0x04030201)).setMx 0 .mx0
        { (s.later 0 .mx0 1 (.s 4 0x04030201)).mx 0 .mx0 with sldFree := 6 }) ∧
      exec (.sst 3 1 0x1FC) s = .next (s.poke (padAddr 0 0x7FFFFC) [0x34, 0x12, 0, 0]) := by
  and_intros <;> first | decide +kernel | exact next_of (by decide +kernel) | exact .inl rfl

/-- A header of one FP32 element in state st. -/
def oneHdr (st : Nat) : BitVec 256 :=
  hSeal (BitVec.ofNat 256 (0x4A37 + 2 ^ 16 + st * 2 ^ 24 + 2 ^ 32 + 2 ^ 64 + 2 ^ 80 + 2 ^ 112))
/-- A unit that holds a tile of one element, 2.0, at 0x100, an accumulator of one element, 1.0, and a row number and an address. -/
def matrixUnit : State :=
  ((unit .perform (fun m => { m with
    h := [(0, ⟨0x100, oneHdr 3⟩), (1, ⟨0x100, oneHdr 3⟩)], c := [(1, ⟨resultHdr 1 1 1 none, 0, [[0x3F800000]], false⟩)],
    v := [(1, List.replicate 128 7)], s := [(2, 0), (3, 0x200)] })).pokeHdr (padAddr 0 0x100) (oneHdr 3)).poke (padAddr 0 0x120) [0, 0, 0, 0x40]
/-- The tile as an op reads it. -/
def oneTile : TileIn := ⟨oneHdr 3, (oneHdr 3).toNat + 0x40000000 * 2 ^ 256, 0x100, false⟩

/-- Operands found, as a truth value. -/
def resolvedTile (r : Except FaultInfo (TileIn × TileIn)) (q : TileIn × TileIn) : Bool := match r with | .ok p => decide (p = q) | .error _ => false
/-- An op in flight in a unit, as a truth value of an outcome: its result and its end. -/
def flies (r : Host.Outcome State Fault Refusal) (res : MResult) (fin : Nat) : Bool :=
  match r with
  | .next t => decide ((t.mx 0 .mx0).flight.map (fun f => (f.result, f.fin, f.lost)) = [(res, fin, false)])
  | .fault _ => false
  | .refused _ => false

theorem wit_MxMatrixOps_products :
    let s := matrixUnit
    let m := s.mx 0 .mx0
    s.performs 0 .mx0 0 (.mma 1 0 (.h 1)) ∧ s.performs 0 .mx0 0 (.mmaz 1 0 (.h 1)) ∧ s.performs 0 .mx0 0 (.wload 2 0) ∧
      s.performs 0 .mx0 0 (.wdrop 2) ∧ s.performs 0 .mx0 0 (.czero 3 1 0 0) ∧ s.performs 0 .mx0 0 (.cload 4 0) ∧
      resolvedTile (s.mmaIn 0 m 0 (.h 1) (some (m.creg 1))) (oneTile, oneTile) = true ∧
      resolvedTile (s.mmaIn 0 m 0 (.h 1) none) (oneTile, oneTile) = true ∧ hExtent (oneHdr 3) ≤ 0x40000 ∧ cloadOk (oneHdr 3) = true ∧
      flies (exec (.mma 1 0 (.h 1)) s) (.acc 1 ⟨resultHdr 1 1 1 none, 0, [[0x40A00000]], false⟩) 28 = true ∧
      flies (exec (.mmaz 1 0 (.h 1)) s) (.acc 1 ⟨resultHdr 1 1 1 none, 0, [[0x40800000]], false⟩) 28 = true ∧
      flies (exec (.wload 2 0) s) (.slot 2 ⟨0x100, oneHdr 3, memCells 0 (s.padRead 0 0x100 64), 64, false⟩) 9 = true ∧
      exec (.wdrop 2) s = .next (s.later 0 .mx0 1 (.b 2 none)) ∧
      flies (exec (.czero 3 1 0 0) s) (.acc 3 ⟨resultHdr 1 1 1 none, 0, [[0]], false⟩) 4 = true ∧
      flies (exec (.cload 4 0) s) (.acc 4 ⟨hSeal (setField (resultHdr 1 1 1 none) 191 176 0), 0, [[0x40000000]], false⟩) 9 = true := by
  and_intros <;> first | decide +kernel | exact next_of (by decide +kernel) | exact .inl rfl

theorem wit_MxMatrixOps_accumulator :
    let s := matrixUnit
    let m := s.mx 0 .mx0
    let a := m.creg 1
    let hd := storeHdr a 1 0 0 0
    s.performs 0 .mx0 0 (.cstore 1 3 0 1 0 0 0) ∧ s.performs 0 .mx0 0 (.crow 5 1 2) ∧ s.performs 0 .mx0 0 (.cput 1 1 2) ∧
      s.performs 0 .mx0 0 (.btopk 5 1 3 0x20) ∧ s.cstoreCheck 0 a 0x200 1 0 0 0 = none ∧ accCheck a = none ∧ (m.sreg 2).toNat < hRows a.hdr ∧
      guardedIn (s.cluster 0) 0x220 32 = none ∧
      flies (exec (.cstore 1 3 0 1 0 0 0) s) (.store 0x200 64 (memCells 32 (storeBytes a hd)) []) 9 = true ∧
      exec (.crow 5 1 2) s = .next ((s.later 0 .mx0 4 (.v 5 (BitVec.allOnes 128) (0x3F800000 :: List.replicate 127 0))).fly 0 .mx0 0 [.c 1] [] 2
        .nothing false) ∧
      flies (exec (.cput 1 1 2) s) (.acc 1 ⟨resultHdr 1 1 1 none, 0, [[7]], false⟩) 2 = true ∧
      exec (.btopk 5 1 3 0x20) s = .next (s.poke (padAddr 0 0x220) (List.replicate 32 0)) := by
  and_intros <;> first | decide +kernel | exact next_of (by decide +kernel) | exact .inl rfl

/-- A unit whose shelf holds a SEALED buffer; the other unit runs with n handles on its shelf. -/
def shelfUnit (n : Nat) (f : Mx → Mx) : State :=
  let o := { Mx.fresh with st := .run, shelf := List.replicate n 0 }
  ((unit .alone (fun m => f { m with shelf := [0x100], s := [(1, 1), (2, 0xFFFF)] })).setMx 0 .mx1 o).pokeHdr (padAddr 0 0x100) (oneHdr 2)

theorem wit_MxHandlesAndControl_handles :
    let s := shelfUnit 31 id
    let z := shelfUnit 32 (fun m => { m with h := [(1, ⟨0x100, oneHdr 3⟩)] })
    let q := shelfUnit 31 (fun m => { m with h := [(1, ⟨0x100, oneHdr 3⟩)] })
    let g := shelfUnit 32 (fun m => { m with h := [(1, ⟨0x100, oneHdr 3⟩)], giving := some true })
    s.performs 0 .mx0 0 (.take 1) ∧ s.performs 0 .mx0 0 (.give 1) ∧ s.performs 0 .mx0 0 (.hrel 1) ∧ (s.mx 0 .mx0).h.find? 1 = none ∧
      mxHdrFault 0x100 2 (s.hdrAt (padAddr 0 0x100)) = none ∧ (q.mx 0 .mx0).h.find? 1 = some ⟨0x100, oneHdr 3⟩ ∧
      (q.mx 0 .mx1).shelf.length < 32 ∧ (q.mx 0 .mx1).queue = [] ∧ (z.mx 0 .mx1).shelf.length = 32 ∧ (z.mx 0 .mx1).accepts = true ∧
      exec (.take 1) s = .next (((s.setMx 0 .mx0 { s.mx 0 .mx0 with shelf := [] }).poke (padAddr 0 0x103) [3]).later 0 .mx0 1
        (.h 1 (some ⟨0x100, oneHdr 3⟩))) ∧
      exec (.give 1) q = .next ((q.giveStep 0 .mx1 0x100).later 0 .mx0 1 (.h 1 none)) ∧
      exec (.give 1) z = .next ((z.setMx 0 .mx0 { z.mx 0 .mx0 with giving := some false }).setMx 0 .mx1
        { z.mx 0 .mx1 with queue := [⟨0x100, .unit .mx0, 0⟩] }) ∧
      exec (.give 1) g = .next ((g.setMx 0 .mx0 { g.mx 0 .mx0 with giving := none }).later 0 .mx0 1 (.h 1 none)) ∧
      exec (.hrel 1) q = .next (((q.setCluster 0 ((q.cluster 0).tagAll 0x100 64 0)).poke (padAddr 0 0x103) [0]).later 0 .mx0 1 (.h 1 none)) := by
  and_intros <;> first | decide +kernel | exact next_of (by decide +kernel) | exact .inr ⟨rfl, rfl⟩

theorem wit_MxHandlesAndControl_control :
    let s := shelfUnit 0 id
    let j := s.setMx 0 .mx0 { s.mx 0 .mx0 with line := 1023, bundle := 31 }
    let f := s.setMx 0 .mx0 { s.mx 0 .mx0 with flight := [⟨[], [], 5, .nothing, false, 0, 0, 0⟩] }
    s.performs 0 .mx0 0 (.br 1023 31) ∧ s.performs 0 .mx0 0 (.brc 0 true 1023 31) ∧ s.performs 0 .mx0 0 (.loop 1 0 0) ∧
      s.performs 0 .mx0 0 .drain ∧ s.performs 0 .mx0 0 .snop ∧ s.performs 0 .mx0 0 (.signal 2 63) ∧ s.performs 0 .mx0 0 .halt ∧
      exec (.br 1023 31) s = .next j ∧ exec (.brc 0 true 1023 31) s = .next j ∧ exec (.brc 0 false 1023 31) s = .next s ∧
      exec (.loop 1 1023 31) s = .next (s.later 0 .mx0 1 (.s 1 0)) ∧
      exec (.loop 3 1023 31) s = .next ((s.later 0 .mx0 1 (.s 3 0xFFFFFFFF)).setMx 0 .mx0
        { (s.later 0 .mx0 1 (.s 3 0xFFFFFFFF)).mx 0 .mx0 with line := 1023, bundle := 31 }) ∧
      exec .drain s = .next s ∧ exec .snop s = .next s ∧ exec (.signal 2 63) s = .next (s.sendBits 1 0xFFFF 0x8000000000000000) ∧
      exec .halt s = .next (s.haltMx 0 .mx0 true) ∧ exec .halt f = .next (f.setMx 0 .mx0 { f.mx 0 .mx0 with stopping := true }) := by
  and_intros <;> first | decide +kernel | exact next_of (by decide +kernel) | exact .inr ⟨rfl, rfl⟩

theorem wit_MxChecksFaultTheUnit :
    let s := unit .check (fun m => { m with s := [(1, 2), (2, 0x10000)], h := [(1, ⟨0, 0⟩)] })
    let a := { s with actor := .mx 0 .mx0 .alone 0 }
    let e := s.setMx 0 .mx0 { s.mx 0 .mx0 with badRegs := [.s 2], c := [(1, { Acc.empty with lost := true })] }
    (∃ r ∈ regReads (.sst 2 1 0), r ∈ (e.mx 0 .mx0).badRegs) ∧ exec (.sst 2 1 0) e = .next (e.mxFault 0 .mx0 0 ⟨14, 0, 1, 0, false, 0⟩) ∧
      (e.mx 0 .mx0).isLost (.c 1) = true ∧ exec (.hdrf 3 (.c 1) .fill) e = .next (e.mxFault 0 .mx0 0 ⟨14, 0, 1, 0, false, 0⟩) ∧
      (s.mx 0 .mx0).regFault (.sst 2 1 0) = none ∧ s.actor = .mx 0 .mx0 .check 0 ∧ exec (.vld 2 1 0 .x32 none) s = .next (s.mxFault 0 .mx0 0 ⟨3, 2, 0, 0, false, 0⟩) ∧
      exec (.sst 2 1 0) s = .next (s.mxFault 0 .mx0 0 ⟨3, 2, 0, 1, false, 0⟩) ∧
      exec (.take 1) a = .next (a.mxFault 0 .mx0 0 ⟨12, 0, 3, 0, false, 0⟩) ∧
      exec (.give 2) a = .next (a.mxFault 0 .mx0 0 ⟨12, 0, 0, 0, false, 0⟩) ∧
      exec (.hrel 2) a = .next (a.mxFault 0 .mx0 0 ⟨12, 0, 0, 0, false, 0⟩) ∧
      exec (.czero 0 2 0 0) a = .next (a.mxFault 0 .mx0 0 ⟨10, 0, 3, 0, false, 0⟩) ∧
      exec (.signal 2 0) a = .next (a.mxFault 0 .mx0 0 ⟨17, 0x10000, 0, 0, false, 0⟩) ∧
      ((s.mxFault 0 .mx0 0 ⟨3, 2, 0, 0, false, 0⟩).mx 0 .mx0).st = .faulted := by
  and_intros <;> first | decide +kernel | exact next_of (by decide +kernel)

/-- The unit of the matrix ops in its check pass: tiles without a header, of FP16, and of 8,200 columns in h2 to h4; accumulators of 32 rows and
of none in c2 and c3; and addresses. -/
def checkUnit : State :=
  let half := hSeal (setField (oneHdr 3) 39 32 3)
  let wide := hSeal (setField (setField (oneHdr 3) 95 80 0x8000) 79 64 16)
  let m := matrixUnit.mx 0 .mx0
  let s := matrixUnit.setMx 0 .mx0 { m with
    h := [(0, ⟨0x100, oneHdr 3⟩), (2, ⟨0x100, 0⟩), (3, ⟨0x100, half⟩), (4, ⟨0x100, wide⟩)],
    c := [(1, ⟨resultHdr 1 1 1 none, 0, [[0x3F800000]], false⟩), (2, ⟨resultHdr 1 32 8 none, 0, [], false⟩), (3, ⟨0, 0, [], false⟩)],
    s := [(1, 0x100), (2, 1), (3, 0x200), (4, 0x101), (5, 0x800000), (6, 0x7FFF00)] }
  { s with actor := .mx 0 .mx0 .check 0 }

theorem wit_MxChecksFaultTheUnit_tiles :
    let s := checkUnit
    let m := s.mx 0 .mx0
    let faults := fun (i : Instr) (f : FaultInfo) => i.WellFormed ∧ m.regFault i = none ∧ exec i s = .next (s.mxFault 0 .mx0 0 f)
    let none_ : FaultInfo := ⟨12, 0, 0, 0, false, 0⟩
    let open_ : FaultInfo := ⟨8, 0x100, 0, 0, false, 0⟩
    (faults (.mma 1 5 (.h 1)) none_ ∧ faults (.wload 0 5) none_) ∧ (faults (.mmaz 1 2 (.h 1)) open_ ∧ faults (.cload 1 2) open_) ∧
      (faults (.wload 0 4) ⟨10, 0x100, 0, 0, false, 0⟩ ∧ faults (.cload 1 3) ⟨10, 0x100, 0, 0, false, 0⟩) ∧
      (faults (.mma 1 0 (.h 5)) ⟨12, 0, 1, 0, false, 0⟩ ∧ faults (.mma 3 0 (.h 0)) ⟨8, 0, 2, 0, false, 0⟩) ∧
      (faults (.mma 2 0 (.h 0)) ⟨9, 0, 2, 0, false, 0⟩ ∧ faults (.crow 1 3 2) ⟨8, 0, 2, 0, false, 0⟩) ∧
      (faults (.cstore 1 4 0 1 0 0 0) ⟨3, 0x101, 0, 1, false, 0⟩ ∧ faults (.cstore 1 5 0 1 0 0 0) ⟨17, 0x800000, 0, 1, false, 0⟩) ∧
      (faults (.cstore 1 3 0 0x30 0 0 0) ⟨10, 0x200, 3, 0, false, 0⟩ ∧ faults (.cstore 2 6 0 1 0 0 0) ⟨17, 0x7FFF00, 0, 1, false, 0⟩) ∧
      (faults (.crow 1 1 2) ⟨17, 1, 0, 0, false, 0⟩ ∧ faults (.cput 1 1 5) ⟨17, 0x800000, 0, 0, false, 0⟩) ∧
      (faults (.btopk 1 1 4 0) ⟨3, 0x101, 0, 1, false, 0⟩ ∧ faults (.btopk 1 1 5 0) ⟨17, 0x800000, 0, 1, false, 0⟩) ∧
      faults (.vst 1 4 0 .x32 none) ⟨3, 0x101, 0, 1, false, 0⟩ := by
  and_intros <;> first | decide +kernel | exact next_of (by decide +kernel)

theorem wit_MxChecksFaultTheUnit_guards :
    let s := checkUnit.setCluster 0 ((checkUnit.cluster 0).tagAll 0x200 64 3)
    let m := s.mx 0 .mx0
    s.actor = .mx 0 .mx0 .check 0 ∧ m.regFault (.btopk 1 1 3 0) = none ∧ accCheck (m.creg 1) = none ∧ guardedIn (s.cluster 0) 0x200 32 = some 0x200 ∧
      (s.cluster 0).granulesOwn 0x200 (hExtent (storeHdr (m.creg 1) 1 0 0 0)) (s.ownResult 0 0x200) = false ∧
      guardedLanes (s.cluster 0) (m.enabled none) 4 128 0 0x100 = some 0x200 ∧
      exec (.cstore 1 3 0 1 0 0 0) s = .next (s.mxFault 0 .mx0 0 ⟨12, 0x200, 3, 0, false, 0⟩) ∧
      exec (.btopk 1 1 3 0) s = .next (s.mxFault 0 .mx0 0 ⟨12, 0x200, 3, 1, false, 0⟩) ∧
      exec (.vst 1 1 0 .x32 none) s = .next (s.mxFault 0 .mx0 0 ⟨12, 0x200, 3, 1, false, 0⟩) := by
  and_intros <;> first | decide +kernel | exact next_of (by decide +kernel)

theorem wit_MxWritesLandAndOpsComplete :
    let s := unit .check (fun m => { m with count := 4, pend := [⟨5, .s 1 1⟩, ⟨4, .s 1 2⟩, ⟨4, .s 1 3⟩], flight := [⟨[], [], 0, .acc 1 Acc.empty, false, 0, 0, 0⟩, ⟨[], [], 0, .nothing, false, 0, 0, 0⟩] })
    let t := unit .check (fun m => { m with flight := [⟨[], [], 0, .store 0x200 64 [(40, 9)] [], false, 0, 0, 0⟩] })
    let slot : BSlot := ⟨0x100, oneHdr 3, [], 64, false⟩
    let lost : MFlight := ⟨[], [], 0, .slot 2 slot, true, 3, 1, 0⟩
    let z := unit .check (fun m => { m with flight := [lost] })
    let y := z.setMx 0 .mx0 { z.mx 0 .mx0 with flight := [], b := [(2, { slot with lost := true })] }
    (s.mx 0 .mx0).pend = [⟨5, .s 1 1⟩] ++ ⟨4, .s 1 2⟩ :: [⟨4, .s 1 3⟩] ∧ ((s.mx 0 .mx0).nextDone s.mnow).map (·.1) = some 0 ∧
      exec (.pendingWriteLand 0 .mx0) s = .next (s.setMx 0 .mx0 { s.mx 0 .mx0 with pend := [⟨5, .s 1 1⟩, ⟨4, .s 1 3⟩], s := [(1, 2)] }) ∧
      exec (.mOpCompletion 0 .mx0) s = .next (s.setMx 0 .mx0 { s.mx 0 .mx0 with
        flight := [⟨[], [], 0, .nothing, false, 0, 0, 0⟩], c := [(1, Acc.empty)] }) ∧
      exec (.mOpCompletion 0 .mx0) t = .next ((t.setMx 0 .mx0 { t.mx 0 .mx0 with flight := [] }).poke (padAddr 0 0x220)
        (List.replicate 8 0 ++ [9] ++ List.replicate 23 0)) ∧
      exec (.mOpCompletion 0 .mx0) z = .next (y.postRecord 0 (lostRecord 0 .mx0 (z.mx 0 .mx0).count lost) (some .mx0)) ∧ (t.crew? 0).isSome = true := by
  and_intros <;> first | decide +kernel | exact next_of (by decide +kernel)

/-- A wait for the reply of another device to a load of four bytes. -/
def awayCtx : Ctx := { seatCtx with st := .remote ⟨5, 0x10000, 0, 3 * Config.localEnd, 4, [1], [2], .load false, false⟩, iw := 0x123 }
/-- The same at the host. -/
def hostCtx : Ctx := { seatCtx with st := .remote ⟨5, 0x10000, 0, Config.hostBase, 4, [1], [2], .load false, false⟩, iw := 0x123 }
/-- A wait for a line of code of another device. -/
def lineCtx : Ctx := { seatCtx with st := .remote ⟨0, 0x10000, 2, 3 * Config.localEnd, 64, [], [], .fetchLine 5, false⟩, iw := 0x123 }
/-- A core whose store path holds two stores, to a line of HBM and to another device. -/
def pathSeat : State :=
  let s := (seat 0).setCtx 0 { seatCtx with st := .reply }
  s.setCore 0 { s.core 0 with path := [⟨0x10103, .store [7, 8], 1, 0⟩, ⟨3 * Config.localEnd + 0x10000, .store [9], 1, 1⟩] }

theorem wit_WhatComesLater :
    let s := pathSeat
    let a := (seat 0).setCtx 0 awayCtx
    let y : Ctx := { seatCtx with st := .yielding 0 }
    let h := (seat 0).setCtx 0 hostCtx
    let f := (seat 0).setCtx 0 lineCtx
    let bad := { s with bad := [0x10103 / 8] }
    let e := (seat 0).setEngine 5 { Engine.fresh with posted := [⟨0, 3 * Config.localEnd, 8⟩] }
    let l := [PathEntry.mk 0x10103 (.store [7, 8]) 1 0, PathEntry.mk (3 * Config.localEnd + 0x10000) (.store [9]) 1 1]
    (s.core 0).path = l ∧ s.place 0x10103 = .hbm ∧ s.place (3 * Config.localEnd + 0x10000) = .remote 3 ∧
      s.heldAt (some (.path 0)) (localOf 0x10103 / 64) = false ∧ a.ctx? 0 = some awayCtx ∧ a.place (3 * Config.localEnd) = .remote 3 ∧
      h.place Config.hostBase = .host ∧ (PathOp.store [7, 8]).spoilt s 0x10103 = false ∧ (PathOp.store [7, 8]).spoilt bad 0x10103 = true ∧
      exec (.memoryReply 0 .here) (s.setCtx 0 { seatCtx with st := .retry }) = .next (s.setCtx 0 { seatCtx with st := .retry }) ∧
      exec (.memoryReply 0 (.fault 4 3 2)) h = .next (takeTrap (h.forgetProt (h.whoOf 0 hostCtx) ⟨5, 0x10001, 6, 0, false, 0⟩) 0 hostCtx ⟨5, 0x10001, 6, 0, false, 0⟩ 0x123) ∧
      exec (.storePathPerform 0 0) bad = .next ((bad.logFabric 4 2 0 0x10103).setCore 0 { s.core 0 with path := l.drop 1 }) ∧
      f.ctx? 0 = some lineCtx ∧ f.joined 0 5 = [0] ∧
      exec (.memoryReply 0 (.fault 4 3 2)) f = .next (takeTrap f 0 lineCtx ⟨4, 0x10000, 3, 2, false, 0⟩ 0x123) ∧
      (e.engine 5).posted = [⟨0, 3 * Config.localEnd, 8⟩] ∧
      exec (.postedWriteAck (.engine 5) 0 .here) e = .next ((e.setEngine 5 Engine.fresh).endCopies 5) ∧
      exec (.memoryReply 0 .here) s = .next (s.wake 0) ∧
      exec (.memoryReply 0 (.data 0x04030201)) a =
        .next (((a.deliver 0 awayCtx 5 (.load false) [1, 1, 2, 3, 4, 2]).past 0 awayCtx .idle).wake 0) ∧
      exec (.memoryReply 0 (.fault 4 3 2)) a = .next (takeTrap a 0 awayCtx ⟨4, 0x10003, 3, 0, false, 0⟩ 0x123) ∧
      exec (.storePathPerform 0 0) s = .next ((s.poke 0x10103 [7, 8]).setCore 0 { s.core 0 with path := l.drop 1 }) ∧
      exec (.postedWriteAck (.core 0) 1 .here) s = .next (s.setCore 0 { s.core 0 with path := l.take 1 }) ∧
      exec (.yieldEnd 0) (s.setCtx 0 y) = .next (s.setCtx 0 seatCtx) := by
  and_intros <;> first | decide +kernel | exact next_of (by decide +kernel)

/-- A context at a PC whose line the I-cache has not. -/
def coldSeat : State := let s := seat 0xC0000001; s.setCore 0 { s.core 0 with icache := [] }

theorem wit_WhatComesLater_fill :
    let s := coldSeat
    let q := { s with spilled := [0x10040], io := { s.io with snoops := [5], hostHolds := [5, 6], hostCache := [(7, 1)] } }
    s.nextReady 0 = some 0 ∧ s.fetch 0 seatCtx = (s, .fill 0x400) ∧ s.fillHeld 0 0x400 = false ∧
      exec (.fetchFill 0 0x400) s = .next (s.fetchFill 0 0x400 1) ∧
      ((s.fetchFill 0 0x400 1).core 0).icache.find? 0x400 = some (s.lineAt 0x400) ∧
      exec (.descriptorRefetch 0x10040) q = .next { q with spilled := [] } ∧
      exec (.backInvalidateAnswer 5) q = .next { q with io := { q.io with snoops := [], hostHolds := [6] } } ∧
      exec (.cxlCacheSnoop 7) q = .next { q with io := { q.io with hostCache := [] } } := by
  and_intros <;> first | decide +kernel | exact next_of (by decide +kernel)

/-- A device that serves others: stage 3, with DXL, Ethernet and CXL.mem granted, a crew of region 1, and that region's page table: a leaf over the
lowest 64 GiB. -/
def outSeat : State := ((seat 0).poke 0 (leBytes 8 0x2001)).poke 0x2000 (leBytes 8 0x1F)
/-- A read by another device. -/
def outRead : DxlRequest := ⟨3, 1, true, false, 0x2000, .read 4⟩
/-- The same device with that request waiting. -/
def outWait : State := { outSeat with io := { outSeat.io with dxlIn := [outRead] } }

theorem wit_OutsideAccesses_devices :
    outSeat.dxlOn = true ∧ exec (.dxlFlitReceive outRead) outSeat = .next outWait ∧ outWait.dxlOn = true ∧
      outWait.performRemote outRead = (outWait, some (.data [0x1F, 0, 0, 0])) ∧
      exec .remoteAccess outWait = .next { outSeat with hostOut := .data [0x1F, 0, 0, 0] } ∧
      3 ≠ outSeat.ctl.devid ∧ goesTo (exec (.deviceLost 3) outSeat) { outSeat with io := { outSeat.io with lostDevs := [3] } } = true := by
  and_intros <;> first | decide +kernel | exact next_of (by decide +kernel)

/-- That device with accesses of device 3 under way: a load of a context, a store in a core's path, and a copy's read. -/
def lostSeat : State :=
  let far := 3 * Config.localEnd + 0x20000
  let c : CopyCmd := ⟨[word far, 0x10100, 0x100, 0, 8, 1, 1] ++ List.replicate 25 0, 0xFF000000000400, 0, 5, 1, 0, true, 1, true, 0, 0, false, [], [], some far, [], []⟩
  let x : Ctx := { seatCtx with st := .remote ⟨5, 0x10000, 0, far, 4, [1], [], .load false, false⟩, iw := 0x123 }
  let s := (outSeat.setEngine 0 { Engine.fresh with queue := [c] }).setCtx 0 x
  let t := s.setCore 0 { s.core 0 with path := [⟨far, .store [9], 1, 0⟩, ⟨0x10100, .store [9], 1, 1⟩, ⟨far + 64, .store [8], 1, 2⟩] }
  t.setTag 0 5 { Tag.zero with count := 1 }

theorem wit_OutsideAccesses_lost :
    let s := lostSeat
    let t := after (exec (.deviceLost 3) s)
    let far := 3 * Config.localEnd + 0x20000
    let x : Ctx := { seatCtx with st := .remote ⟨5, 0x10000, 0, far, 4, [1], [], .load false, false⟩, iw := 0x123 }
    (s.ctx? 0 = some x ∧ s.place far = .remote 3 ∧ far / Config.localEnd = 3) ∧ exec (.deviceLost 0) s = .next s ∧
      goesOn (exec (.deviceLost 3) s) = true ∧ 3 ∈ t.io.lostDevs ∧ t.io.fabric.count = 2 ∧ t.io.fabric.cause = 5 ∧ t.io.fabric.source = 4 ∧
      t.io.fabric.addr = far ∧ (t.core 0).path = [⟨0x10100, .store [9], 1, 1⟩] ∧ (t.engine 0).queue = [] ∧ (t.tag 0 5).fault = true ∧
      field (t.tag 0 5).fr0 7 0 = 6 ∧
      lostContext 3 s 0 = takeTrap ((s.dropToken 0 0).dropWaits 0) 0 x ⟨6, 0x10001, 0, 0, false, 0⟩ 0x123 := by
  and_intros <;> first | decide +kernel | exact next_of (by decide +kernel)

/-- The state after RDMA's access to the first bytes at 0x1003E: the translation it has made. -/
def rdmaSeat (n : Need) : State × Res (List (Nat × Nat)) := outSeat.rdmaParts (rdmaWho outSeat 1) n (word 0x1003E) 3

theorem wit_OutsideAccesses_rdma :
    let s := outSeat
    let t := (rdmaSeat Need.put).1
    let u := ((outSeat.poke 0x2008 (leBytes 8 0x20001)).poke 0x20000 (leBytes 8 0x22001)).poke 0x22000 (leBytes 8 (Config.storeBase + 0x1F))
    let va := 2 ^ 36 + 254
    let ps := [(0x1003E, 2), (0x10040, 1)]
    s.ctl.stage = 3 ∧ s.service 35 = true ∧ s.ethOn = true ∧ 7 ∉ s.io.qpError ∧ (rdmaSeat Need.put).2 = .ok ps ∧ (rdmaSeat Need.load).2 = .ok ps ∧
      t.ownLines none ((ps.map (fun p => t.hbmLines p.1 p.2)).flatten) = (t, true) ∧
      (rdmaSeat Need.load).1.readLines none ((ps.map (fun p => t.hbmLines p.1 p.2)).flatten) = ((rdmaSeat Need.load).1, true) ∧
      (match u.rdmaParts (rdmaWho u 1) Need.put (word va) 3 with | (_, .fault f) => f.code == 16 | _ => false) = true ∧
      (after (exec (.rdmaWrite 7 1 va [1, 2, 3]) u)).io.fabric.cause = 4 ∧ (after (exec (.rdmaWrite 7 1 va [1, 2, 3]) u)).io.qpError = [7] ∧
      exec (.workRequestPost (.port .a) 16383 9) s = .next { s with io := { s.io with works := [(16383, 9)] } } ∧
      exec (.rdmaWrite 7 1 0x1003E [1, 2, 3]) s = .next ((t.poke 0x1003E [1, 2, 3]).tell .done) ∧
      exec (.completionEntry 7 1 0x1003E [1, 2, 3]) s = .next ((t.poke 0x1003E [1, 2, 3]).tell .done) ∧
      exec (.send 7 1 0x1003E [1, 2, 3]) s = .next (((t.poke 0x1003E [1, 2, 3]).received 7 [1, 2, 3]).tell .done) ∧
      exec (.rdmaWriteWithImmediate 7 1 0x1003E [1, 2, 3] 0x105) s = .next (((t.poke 0x1003E [1, 2, 3]).received 7 [5, 1, 0, 0]).tell .done) ∧
      exec (.rdmaRead 7 1 0x1003E 3) s = .next ((rdmaSeat Need.load).1.tell (.data [0, 0, 0])) := by
  and_intros <;> first | decide +kernel | exact next_of (by decide +kernel)

/-- The last address of a cluster's workspace pool that BAR 2 may write: a core store in which nothing is live. -/
def bar2Addr : Nat := Config.storeBase + 0x3FFF8

theorem wit_OutsideAccesses_host :
    let s := outSeat
    let b : List Byte := [1, 2, 3, 4, 5, 6, 7, 8]
    let z := s.setCtx 0 { seatCtx with wp := word (wsAddr 0 0x200) }
    s.cxlMemOn 0x2000 = true ∧ s.heldAt none (0x2000 / 64) = false ∧ badIn s.bad (64 * (0x2000 / 64)) 64 = false ∧
      maskedBad s.bad (0x2000 / 64) 5 = false ∧ memWf s.mem = true ∧
      exec (.cxlMemRead .b 0x2000) s = .next { s with io := { s.io with hostHolds := [0x80] }, hostOut := .data (0x1F :: List.replicate 63 0) } ∧
      exec (.cxlMemWrite .b 0x2000 0x030201 5) s = .next (((s.poke 0x2000 [1]).poke 0x2002 [3]).tell .done) ∧
      bar2Range bar2Addr 8 = true ∧ s.liveWs bar2Addr 8 = false ∧ badIn s.bad bar2Addr 8 = false ∧ bar2Addr % 64 + 8 ≤ 64 ∧
      bar2Causes s 2 bar2Addr 8 = none ∧ bar2Range (wsAddr 0 0xC0) 0x300 = true ∧
      exec (.bar2Read .a (wsAddr 0 0xC0) 0x300) z = .next ((z.logFabric 0 4 0 (wsAddr 0 0xC0)).tell .unsupported) ∧
      (bar2Causes s 2 seatCtx.wp.toNat 8).isSome = true ∧ exec (.bar2Read .a bar2Addr 8) s = .next (s.tell (.data (List.replicate 8 0))) ∧
      exec (.bar2Write .a bar2Addr b) s = .next (s.poke bar2Addr b) := by
  and_intros <;> first | decide +kernel | exact next_of (by decide +kernel)

/-- Words of eight bytes from an address on. -/
def words (s : State) (p : Nat × List Word) : State := s.poke p.1 (wordBytes p.2)
/-- The region with a fault queue at 0x4000, a handler template at 0x6000 and a launch queue at 0x7000, their rings behind them. -/
def sysRegion : Region := { seatRegion with fqh := 0x1000000004000, hndl := 0x6000, lqh := 0x1000000007000 }
/-- A device on which that region runs, with a launch of one crew at the head of its launch queue; its record stands at 0x8000 and the seed's
template at 0x9000. -/
def sysSeat (f : Cluster → Cluster) : State :=
  let l : List (Nat × List Word) := [(0x4000, [0x4800, 0x1000000000464]), (0x7000, [0x7800, 0x1000000000464, 0, 1]),
    (0x6000, [0x40003, 0, 0, 0, 1, 2, 3, 0x10]), (0x7800, [0, 0, 2 ^ 32, 0, 0x8000, 5, 6, 0x10]), (0x8000, [0x4000000001, 0, 0, 0, 0x9000]),
    (0x9000, [0x30000, 0, 2 ^ 32, 0, 7, 8, 9, 8])]
  let u := l.foldl words (outSeat.setRegion sysRegion)
  u.setCluster 0 (f { u.cluster 0 with ctxlim := 256 })

/-- A task queue of 64 places whose oldest entry in lane p is a record at slot 0. -/
def taskSeat (p : Nat) (r : List Word) : State :=
  words (sysSeat (fun cl => { cl with tq := ⟨setAt (List.replicate 8 ⟨0, 0, 0⟩) p ⟨0, 0, 1⟩, 1, 64⟩ })) (tqSlot 0 64 0, r)

theorem wit_CrewsBindRetireAndLaunch_bind :
    let s := taskSeat 7 [0x30002, 0, 2 ^ 32, 0, 7, 8, 9, 7]
    let q := taskSeat 0 [0x30002, 0, 2 ^ 33, 0, 7, 8, 9, 0]
    (s.crew? 0).isSome = true ∧ (s.cluster 0).frozen = false ∧ s.quiescing 0 = false ∧ s.handlerReady 0 = false ∧ s.mayTake 0 = true ∧
      (q.crew? 0).isSome = true ∧ q.quiescing 0 = false ∧ q.handlerReady 0 = false ∧ q.mayTake 0 = true ∧
      [7, 6, 5, 4, 3, 2, 1, 0].filterMap (s.laneAct 0) = [.bind 7 0] ∧ [7, 6, 5, 4, 3, 2, 1, 0].filterMap (q.laneAct 0) = [.refuse 0 (flt .priv 0)] ∧
      exec (.bind 0) s = .next ((s.binderUsed 0).bindTask 0 7 0) ∧ exec (.bind 0) q = .next ((q.binderUsed 0).refuseEntry 0 0 (flt .priv 0)) ∧ (s.cluster 0).bindAt = 0 ∧ s.idleSlot 0 = some 1 ∧ s.freePool 0 = some 1 ∧
      exec (.faultQueueRetry (.binder 0)) q = .next ((q.binderUsed 0).refuseEntry 0 0 (flt .priv 0)) ∧
      (s.bindTask 0 7 0).ctx? 1 = some { seatCtx with pc := 0x30000, wp := word (wsAddr 0 0x100), home := word (wsAddr 0 0x100), level := .user,
                                                      arg0 := 7, arg1 := 8, arg2 := 9, tvbase := 0 } ∧
      ((q.refuseEntry 0 0 (flt .priv 0)).cluster 0).handlers.map (·.pc) = [0x30002] ∧
      (q.refuseEntry 0 0 (flt .priv 0)).peek64 0x4838 = 0x30 := by
  and_intros <;> first | decide +kernel | exact next_of (by decide +kernel)

/-- A handler that is to bind: its fault was a context's of slot 0, which is still bound, so that slot 1 takes it. -/
def theHandler : HandlerBind := ⟨some 0, 17, 0x30004, 0x1200000000000, 0xABC⟩

theorem wit_CrewsBindRetireAndLaunch_handler :
    let s := sysSeat (fun cl => { cl with handlers := [theHandler] })
    let r := (s.setCluster 0 { s.cluster 0 with handlers := [] }).readAs (s.mxWho 0) 0x6000 64 []
    let bs := wordBytes [0x40003, 0, 0, 0, 1, 2, 3, 0x10]
    (s.cluster 0).handlers = [theHandler] ∧ s.handlerReady 0 = true ∧ s.effOf (s.mxWho 0).region 7 (·.hndl) 0 = 0x6000 ∧
      r.2 = .ok (bs, []) ∧ r.1.handlerSlot 0 theHandler = some 1 ∧ r.1.freePool (coreOf 1) = some 1 ∧
      goesTo (exec (.handlerBind 0 []) s) (match exec (.handlerBind 0 []) s with | .next t => t | _ => s) = true ∧
      (match exec (.handlerBind 0 []) s with | .next t => t | _ => s).ctx? 1 =
        some { seatCtx with pc := 0x40000, tvbase := 0x40000, wp := word (wsAddr 0 0x100), home := word (wsAddr 0 0x100), arg0 := 1, arg1 := 2,
                            arg2 := 3, trappc := 0x30004, trapinfo := 0x1200000000000, trapaddr := 0xABC } := by
  decide +kernel

theorem wit_CrewsBindRetireAndLaunch_seals :
    let tm : Timer := ⟨0x100, 0, .mx0, 7, none⟩
    let a := tileSeat 1 1 0 []
    let s := a.setCluster 0 { a.cluster 0 with timers := [tm] }
    let z := s.setMx 0 .mx0 Mx.fresh
    let one : State := { s with now := 1 }
    let q := one.setMx 0 .mx0 { s.mx 0 .mx0 with queue := [⟨0x100, .timer 7, 0⟩] }
    (s.cluster 0).timers.find? (fun t => t.hdr == tm.hdr) = some tm ∧ expired (s.cycleOf (dieOfCluster 0)) tm = true ∧
      (s.mx 0 .mx0).queue.any (fun q => q.hdr == tm.hdr && q.who == .timer tm.opener) = false ∧ (z.mx 0 .mx0).accepts = false ∧
      (s.mx 0 .mx0).accepts = true ∧ (q.mx 0 .mx0).shelf.length < 32 ∧ q.storing 0 0x100 = false ∧
      exec (.timerExpiry 0 0x100) z = .next (z.setCluster 0 { z.cluster 0 with timers := [] }) ∧
      exec (.timerExpiry 0 0x100) s = .next (s.requestSeal 0 .mx0 0x100 (.timer 7)).1 ∧ 0 < q.now ∧
      exec (.servePendingRequest 0 .mx0) q = .next (one.serve 0 .mx0 ⟨0x100, .timer 7, 0⟩) ∧ ((one.serve 0 .mx0 ⟨0x100, .timer 7, 0⟩).mx 0 .mx0).shelf = [0x100] := by
  and_intros <;> first | decide +kernel | exact next_of (by decide +kernel)

theorem wit_CrewsBindRetireAndLaunch_retries :
    let x : Ctx := { userCtx with st := .waiting (.dispatch (flt .priv 0x10000) 0x123 0 true) }
    let r := controlNotice 0
    let s := (sysSeat (fun cl => { cl with notices := [⟨r, none, 0⟩] })).setCtx 0 x
    let e := memRead s.mem 0x7800 64
    let t := { s with co := { s.co with launchRetry := [(1, (flt .priv 0, 0, memRead s.mem 0x7800 64))] } }
    s.ctx? 0 = some x ∧ x.held = false ∧ s.regionActive x.region = true ∧ s.quiescing (clusterOf 0) = false ∧
      (s.cluster 0).notices = [⟨r, none, 0⟩] ∧ s.crewRegion? 0 = some 1 ∧ t.region? 1 = some sysRegion ∧
      t.co.launchRetry.find? 1 = some (flt .priv 0, 0, e) ∧ (t.launchHead sysRegion []).2 = .ok (some e, []) ∧ s.now = 0 ∧
      exec (.faultQueueRetry (.context 0)) s = .next (s.dispatch 0 x (flt .priv 0x10000) 0x123 false) ∧
      exec (.faultQueueRetry (.notice 0)) s = .next ((s.setCluster 0 { s.cluster 0 with notices := [] }).postRecord 0 r none) ∧
      exec (.faultQueueRetry (.launch 1 [])) t = .next ((t.launchHead sysRegion []).1.rejectLaunch sysRegion e (flt .priv 0)) ∧
      ((s.dispatch 0 x (flt .priv 0x10000) 0x123 false).ctx? 0).isNone = true := by
  and_intros <;> first | decide +kernel | exact next_of (by decide +kernel)

theorem wit_CrewsBindRetireAndLaunch_retirement :
    let s := sysSeat id
    let z := s.dropCtx 0
    let d := z.setCluster 0 { z.cluster 0 with owner := .draining 0 0 }
    z.retrySpans = z ∧ (z.crew? 0).isSome = true ∧ z.crewIdle 0 = true ∧ (d.cluster 0).owner = .draining 0 0 ∧ d.tagsClear 0 = true ∧
      exec (.crewRetirement 0) z = .next (z.retireCrew 0) ∧ ((z.retireCrew 0).cluster 0).owner = .draining 0 0 ∧
      (match exec (.clusterDrainEnd 0) d with | .next t => (t.cluster 0).owner == .free && t.co.retest.isEmpty | _ => false) = true := by
  and_intros <;> first | decide +kernel | exact next_of (by decide +kernel)

/-- The region's head launch, and what its checks give. -/
def theLaunch : Launch :=
  ⟨1, 256, 64, (none, none), (0, 0), wordBytes [0x30000, 0, 2 ^ 32, 0, 7, 8, 9, 8], 0, none, 0⟩

theorem wit_CrewsBindRetireAndLaunch_launch :
    let s := sysSeat id
    let e := memRead s.mem 0x7800 64
    let v := { s with co := { s.co with chosen := s.co.chosen.insert (s.effPrio sysRegion) 1, handling := some 1, retest := s.co.retest.filter (· != 1) } }
    let c := (v.launchHead sysRegion []).1.checkLaunch sysRegion (contOf e) []
    let t := c.1.unreserve 1
    let z := after (exec (.launchSelection []) s)
    s.co.handling = none ∧ s.selected s.candidates = some sysRegion ∧ v.launchable sysRegion = true ∧ (v.launchHead sysRegion []).2 = .ok (some e, []) ∧
      (contOf e).region = 1 ∧ (contOf e).kind = 1 ∧ (contOf e).pc = 0 ∧ (contOf e).wp = 0 ∧
      c.2 = .ok (theLaunch, []) ∧ ((t.path sysRegion).all fun p => p.usecl + 1 ≤ t.maxClusters p) = true ∧ 1 ≤ (t.freeEligible 0).length ∧
      (t.removeLaunch sysRegion none).2 = true ∧ chooseClusters (t.freeEligible 0) 1 = [1] ∧
      goesOn (exec (.launchSelection []) s) = true ∧ (z.cluster 1).owner = .crew 1 0 ∧ z.co.nextSerial = 2 ∧ z.co.handling = none ∧
      theLaunch.seed.length = 64 ∧ 0 < theLaunch.qcap ∧ theLaunch.qcap ≤ 32768 ∧ memWf s.mem = true ∧
      ((z.cluster 1).tq.lane 0).count = 1 ∧ (z.cluster 1).mx0 = Mx.fresh := by
  decide +kernel

/-- A WDQ query that has arrived, of a grid of three points. -/
def theQuery : Query := ⟨0, 0, 0, 5, padAddr 0 0x40, 0, true, true⟩

theorem wit_EnginesAndRegionCommands_query :
    let p : Span := { theSpan with grid := some (1, 0, 3, 1, 1), grant := 2 }
    let s := (busyTag (seat 0) 5 1).setSpan p
    let z := { s with co := { s.co with queries := [theQuery] } }
    let e := (busyTag (seat 0) 5 1).setSpan { p with grant := 3 }
    let b := { z with co := { z.co with grants := (0, 4) } }
    z.nextQuery = some theQuery ∧ z.span? 0 = some p ∧ gridWord p.grid 2 = 2 ∧ gridWord p.grid 3 = 0xFFFFFFFFFFFFFFFF ∧
      z.grantsNow < 4 ∧ 4 ≤ b.grantsNow ∧ exec .wdqGrant b = .next b ∧
      exec .wdqGrant z = .next ((State.poke64 { e with co := { e.co with grants := (0, 1) } } (padAddr 0 0x40) 2).tagDown 0 5) := by
  and_intros <;> first | decide +kernel | exact next_of (by decide +kernel)

/-- A copy of three bytes from 0x10000 to 0x10100 that has been begun. -/
def theCopy : CopyCmd :=
  ⟨[0x10000, 0x10100, 0x100, 0, 3, 1, 1] ++ List.replicate 25 0, 0xFF000000000400, 0, 5, 1, 0, true, 1, true, 0, 0, false, [], [], none, [], []⟩
/-- The engine after the choice of region 1. -/
def chosenEngine : Engine := { Engine.fresh with queue := [theCopy], last := 1, credits := [(1, 7)], round := 255 }
/-- A device whose engine 0 has that copy; the host may hold some lines. -/
def copying (held : List Nat) : State :=
  let s := ((busyTag outSeat 5 1).poke 0x10000 [1, 2, 3]).setEngine 0 { Engine.fresh with queue := [theCopy] }
  { s with io := { s.io with hostHolds := held } }

theorem wit_EnginesAndRegionCommands_copy :
    let s := copying []
    let z := copying [0x404]
    let r := runElems 0 1024 (s.setEngine 0 chosenEngine) theCopy []
    let q := runElems 0 1024 (z.setEngine 0 chosenEngine) theCopy []
    let b := { s with bad := [0x10000 / 8] }
    let w := s.setEngine 0 { s.engine 0 with posted := [⟨0, 3 * Config.localEnd, 8⟩] }
    let u := runElems 0 1024 (b.setEngine 0 chosenEngine) theCopy []
    s.chooseRegion 0 = some (1, chosenEngine) ∧ z.chooseRegion 0 = some (1, chosenEngine) ∧ pickCommand [theCopy] 1 (fun c => c.begun || s.parkedOf 0 < 4) = some 0 ∧
      theCopy.begun = true ∧ r.2.2 = .finished ∧ q.2.2 = .more ∧ memRead r.1.mem 0x10100 4 = [1, 2, 3, 0] ∧ q.1.io.snoops = [0x404] ∧
      exec (.copyQuantum 0 []) s = .next (((r.1.count (.die 0 1) 7 1).endCopy 0 0 r.2.1 none).flushWrites) ∧
      exec (.copyQuantum 0 []) z = .next (State.flushWrites ((q.1.count (.die 0 1) 7 1).setEngine 0 { q.1.engine 0 with queue := [q.2.1] })) ∧
      b.chooseRegion 0 = some (1, chosenEngine) ∧ u.2.2 = .stopped false (flt .eccUncorr 0x10000) ∧
      exec (.copyQuantum 0 []) b = .next ((((u.1.count (.die 0 1) 7 1).count (.die 0 1) 8 1).endCopy 0 0 u.2.1
        (some (14, 0x10000, 0, 0xFF000000000400))).flushWrites) ∧
      (s.engine 0).ending = [] ∧ (s.engine 0).posted = [] ∧ ((s.endCopy 0 0 theCopy none).engine 0).queue = [] ∧
      ((w.endCopy 0 0 theCopy none).engine 0).ending = [⟨0, 0, 5, none⟩] ∧ s.drains 0 = false ∧ (s.tag 0 5).fault = false ∧
      ((s.tagReport ⟨none, 0, 5, 14, 1, 2, 3⟩).tag 0 5) = ⟨0, true, 14, 1, 2, 3⟩ := by
  and_intros <;> first | decide +kernel | exact next_of (by decide +kernel)

theorem wit_EnginesAndRegionCommands_gldm :
    let q : Gldm := ⟨0, 1, 0, .addW, 0x100, [⟨0, 0, 0, true⟩, ⟨1, 1, 0, true⟩], [⟨0, 3, none⟩, ⟨1, 4, none⟩], 0, 0x440, 5, true⟩
    let s := { busyTag (seat 0) 5 1 with gldms := [q] }
    s.unreadAway q.members q.got = [] ∧ s.unreadHere q.members q.got = [] ∧ (q.got.all fun g => g.failed.isNone) = true ∧ s.crew? 0 = some (0, 0) ∧
      guardedIn (s.cluster 0) 0x440 64 = none ∧
      exec (.gldmResult 0 []) s = .next (((busyTag (seat 0) 5 1).poke (padAddr 0 0x440) (7 :: List.replicate 63 0)).tagDown 0 5) := by
  and_intros <;> first | decide +kernel | exact next_of (by decide +kernel)

/-- A device with a command at the head of the queue, its region 1 in a state with some use, and an RCB of region 5 at 0xA000. -/
def commanded (cmd rcb : Nat) (st : RegionState) (n : Nat) : State :=
  let s := words (outSeat.setRegion { seatRegion with state := st, usecl := n }) (0xA000, [5, 0, 0x100 + 16 * 2 ^ 16])
  { s with ctl := { s.ctl with regcmd := [⟨cmd, rcb, false, 0x100000⟩] } }

theorem wit_EnginesAndRegionCommands_regions :
    let a := commanded 1 0xA000 .active 1
    let h := commanded 4 0x1000 .preempted 0
    let d := commanded 5 0x1000 .halted 0
    let r := a.readRcb 0xA000
    let t := d.setRegionState 1 .inactive
    a.headCmd = some ⟨1, 0xA000, false, 0x100000⟩ ∧ a.rcbOk 0xA000 = true ∧ a.regionAt 0xA000 = none ∧ a.peek 0xA005 1 = 0 ∧ r.id = 5 ∧
      a.region? 5 = none ∧ a.parentActive r = true ∧ a.depthBelow r.parent ≤ 8 ∧ h.headCmd = some ⟨4, 0x1000, false, 0x100000⟩ ∧
      h.rcbOk 0x1000 = true ∧ h.regionAt 0x1000 = some { seatRegion with state := .preempted, usecl := 0 } ∧
      d.headCmd = some ⟨5, 0x1000, false, 0x100000⟩ ∧ d.regionAt 0x1000 = some { seatRegion with state := .halted, usecl := 0 } ∧
      exec .activate a = .next (((a.setRegion r).setRegionState 5 .active).endCmd 0) ∧
      exec .haltCommand h = .next ((h.haltRegions 1 none).endCmd 0) ∧
      exec .deactivate d = .next (State.endCmd { t with co := { t.co with regions := t.co.regions.erase 1 } } 0) := by
  and_intros <;> first | decide +kernel | exact next_of (by decide +kernel)

theorem wit_EnginesAndRegionCommands_preemption :
    let p := commanded 2 0x1000 .active 1
    let im : SavedImage := ⟨1, 0x100000, [1], []⟩
    let q := (commanded 3 0x1000 .preempted 1).poke 0x1000 [1]
    let n := ((after (exec .resume { q.poke 0x1000 [9] with co := { q.co with images := [im] } })).co)
    let r := { q with co := { q.co with images := [im] } }
    let w := { p with co := { p.co with preempts := [⟨1, 0x100000, false⟩] } }
    let z := { p with co := { p.co with preempts := [⟨1, 0x100000, true⟩] } }
    let y := { r with co := { r.co with resumes := [(1, 0x100000)] } }
    p.headCmd = some ⟨2, 0x1000, false, 0x100000⟩ ∧ p.areaOk 0x100000 (p.subtreeClusters 1).length = true ∧ (p.subtreeClusters 1).length = 1 ∧
      r.headCmd = some ⟨3, 0x1000, false, 0x100000⟩ ∧ r.parentActive { seatRegion with state := .preempted, usecl := 1 } = true ∧
      (r.co.resumes.any (fun p => p.1 == 1)) = false ∧ r.readLines none ([0x1000].map rcbLines).flatten = (r, true) ∧
      idsOk ([0x1000].map r.rcbId) = true ∧ r.reclaimIds [0x1000] = some r ∧ n.resumes = [(9, 0x100000)] ∧ (n.regions.find? 9).isSome = true ∧ im.clusters.all r.headerOk = true ∧
      r.co.images.find? (fun im => im.region == 1 && im.image == localOf 0x100000 && r.place 0x100000 == .hbm) = some im ∧
      w.nextPreempt = some ⟨1, 0x100000, false⟩ ∧ w.co.preempts.any (·.started) = false ∧ z.co.preempts.find? (·.started) = some ⟨1, 0x100000, true⟩ ∧
      (z.subtreeClusters 1).all z.quiet = true ∧ y.readyImage = some im ∧
      exec .preempt p = .next { p.popCmd with co := { p.co with preempts := [⟨1, 0x100000, false⟩] } } ∧
      (match exec .resume r with | .next t => decide ((1, 0x100000) ∈ t.co.resumes) | _ => false) = true ∧
      (match exec .preemptionEvent w with | .next t => decide (t.co.preempts = [⟨1, 0x100000, true⟩]) | _ => false) = true ∧
      (match exec .copyOut z with | .next t => decide (t.co.images.map (·.regions) = [[1]]) && (t.cluster 0).owner == .free | _ => false) = true ∧
      (match exec .resumeCopyBack y with | .next t => t.co.images.isEmpty && (t.region? 1).map (·.state) == some .active | _ => false) = true := by
  and_intros <;> first | decide +kernel | exact next_of (by decide +kernel)

theorem wit_ControlRegisterCommands_clusters :
    let s := outSeat
    let fz := s.freezeCrew 0
    let us := s.setCtx 0 userCtx
    let fu := s.setMx 0 .mx0 { Mx.fresh with st := .faulted, pend := [⟨9, .s 1 2⟩] }
    let fl := s.setMx 0 .mx0 { Mx.fresh with st := .run, flight := [⟨[], [], 5, .nothing, false, 0, 0, 0⟩] }
    s.ctl.stage = 3 ∧ s.clusterRight (.port .a) 255 = true ∧ s.clusterRight (.context 0) 0 = true ∧
      exec (.mxresume 255 .mx1 (.port .a)) s = .next (s.mxResume 255 .mx1) ∧ exec (.mxhalt 0 .mx1 (.context 0)) s = .next (s.mxHalt 0 .mx1) ∧
      exec (.freeze 0 (.context 0)) s = .next (s.freezeIfHeld 0) ∧ exec (.thaw 0 .service) s = .next (s.thawCrew 0) ∧
      exec (.release 0 .service) (s.freezeCrew 0) = .next ((s.freezeCrew 0).releaseIfFrozen 0) ∧ ((s.freezeIfHeld 0).cluster 0).frozen = true ∧
      (((s.freezeCrew 0).releaseIfFrozen 0).crew? 0).isNone = true ∧ (s.cluster 0).frozen = false ∧ (fz.cluster 0).frozen = true ∧
      exec (.release 0 .service) s = .next s ∧ exec (.thaw 0 .service) s = .next s ∧ ((after (exec (.freeze 0 .service) us)).ctx? 0).map (·.held) = some true ∧
      ((after (exec (.thaw 0 .service) fz)).cluster 0).frozen = false ∧
      exec (.mxresume 0 .mx0 .service) fu = .next (fu.setMx 0 .mx0 { fu.mx 0 .mx0 with st := .run }) ∧
      exec (.mxhalt 0 .mx0 .service) fl = .next (fl.setMx 0 .mx0 { fl.mx 0 .mx0 with stopping := true }) ∧
      ((after (exec (.mxhalt 0 .mx0 .service) fu)).mx 0 .mx0).s = [(1, 2)] ∧ ((after (exec (.release 0 .service) fz)).span? 0).map (·.records) = some 1 := by
  and_intros <;> first | decide +kernel | exact next_of (by decide +kernel)

/-- A device whose queue-window slot 4095 names a queue of region 1, of entries of sixteen bytes. -/
def windowSeat : State :=
  let s := words outSeat (0x4000, [0x4800, 0x1000000000421])
  { s with io := { s.io with windows := [(4095, ⟨0x1000000004000, 0, 7, 1, [11, 22, 0, 0, 0, 0, 0, 0]⟩)] } }
/-- An invalidation accepted. -/
def invalidated (s : State) (kind : Nat) (asid : BitVec 16) (vpg : Nat) : Bool := match (s.invalidate none kind asid vpg).2 with | .ok _ => true | _ => false

theorem wit_ControlRegisterCommands_windows :
    let s := outSeat
    let z := windowSeat
    let w := z.io.windows.getD 4095 Window.zero
    let r := z.enq (regionWho z 1 none) 0x1000000004000 16 (wordBytes [11, 22])
    isContext (.port .b) = false ∧ invalidated s 0 1 1 = true ∧ invalidated s 1 1 0 = true ∧ invalidated s 2 0 0 = true ∧
      w.region.toNat = 1 ∧ ((z.region? 1).map (·.state)) = some .active ∧ r.2 = .ok ⟨0, 0⟩ ∧ r.1.peek64 0x4808 = 22 ∧
      exec (.tlbinvPage (.port .b) 1 1) s = .next (s.invalidate none 0 1 1).1 ∧ exec (.tlbinvAsid (.port .b) 1) s = .next (s.invalidate none 1 1 0).1 ∧
      exec (.tlbinvAll (.port .b)) s = .next (s.invalidate none 2 0 0).1 ∧ (((s.invalidate none 0 1 1).1).core 0).tlb = [] ∧
      exec (.doorbell (.port .b) 4095 1) z = .next (r.1.windowDone 4095 0) ∧ exec (.fabricLogClr .service 1) s = .next (s.fabricClear 1) := by
  and_intros <;> first | decide +kernel | exact next_of (by decide +kernel)

/-- A device in a stage, owned by port A or free, with the fabric trained. -/
def staged (n owner : Nat) : State := { outSeat with ctl := { outSeat.ctl with stage := n, owner := owner } }

theorem wit_ControlRegisterCommands_ownership :
    let s := staged 1 0
    let a := staged 1 1
    let z := staged 2 1
    let stored := fun (n p : Nat) (t : State) => { t with ctl := { t.ctl with owner := n, semStore := some (t.now, p) } }
    1 ≤ s.ctl.stage ∧ s.ctl.owner = 0 ∧ a.ctl.owner ≠ 0 ∧ a.owns (.port .a) = true ∧ z.ctl.trained = true ∧ z.owns (.port .a) = true ∧
      exec (.acq (.port .a)) s = .next (stored 1 1 a) ∧ exec (.acq (.port .b)) a = .next (stored 1 2 a) ∧ exec (.rel (.port .a)) a = .next (stored 0 1 a) ∧
      exec (.stage (.port .a) 3) z =
        .next { z with ctl := { z.ctl with stage := 3, featGrant := (z.ctl.featReq &&& z.ctl.featOffer) ||| 1 },
                        co := { z.co with chosen := [] } } := by
  and_intros <;> first | decide +kernel | exact next_of (by decide +kernel)

theorem wit_ControlRegisterCommands_registers :
    let s := staged 1 0
    let v : Word := 0x17
    let o := staged 1 1
    let p := { s with ctl := s.ctl.setBox .a { s.ctl.box .a with pending := some (1, 16, .port .b) } }
    placeLocal (Config.mmioBase + 0x60) = .mmio ∧ (Config.mmioBase + 0x60) % 8 = 0 ∧
      isContext (.port .b) = false ∧ (o.ctl.box .a).pending = none ∧ s.owns (.port .b) = false ∧ o.owns (.port .a) = true ∧
      exec (.registerWrite (.port .b) (mailboxAddr .a) 0x100001) s = .next p ∧ p.ctl.boxA.pending = some (1, 16, .port .b) ∧
      exec (.registerWrite (.port .b) (mailboxAddr .a) 0x100001) p = .next (p.boxDone .a 1 []) ∧
      exec (.registerWrite (.port .b) (mailboxAddr .a) 6) s = .next (s.boxDone .a 2 []) ∧
      (p.ctl.box .a).pending = some (1, 16, .port .b) ∧ goesOn (exec (.identity .a 16) s) = true ∧
      goesOn (exec (.certs .a 16) s) = true ∧ goesOn (exec (.attest .a 64) s) = true ∧
      exec (.fwstage ⟨.a, .port .a⟩ 2) o = .next (State.boxDone { o with ctl := { o.ctl with staging := [0, 0] } } .a 0 []) ∧
      exec (.fwstage ⟨.a, .port .b⟩ 2) s =
        .next ((s.boxDone .a 4 []).logDevice 1 (Storer.source (.port .b)) (word (s.phys (mailboxAddr .a))) 0) ∧
      exec (.fwcommit ⟨.a, .port .a⟩ 0 ⟨true, 1⟩) o = .next (State.boxDone { o with ctl := { o.ctl with committed := some [] } } .a 0 []) ∧
      (after (exec (.fwcommit ⟨.a, .port .a⟩ 0 ⟨false, 1⟩) o)).ctl.boxA.mstat = 3 ∧
      (after (exec (.fwcommit ⟨.a, .port .b⟩ 0 ⟨true, 1⟩) o)).ctl.boxA.mstat = 4 ∧
      exec (.registerWrite (.port .b) (Config.mmioBase + 0x60) v) s = .next (s.storeCommand (.port .b) (Config.mmioBase + 0x60) v) ∧
      (s.storeCommand (.port .b) (Config.mmioBase + 0x60) v).ctl.irqmask (.port .b) = 0x17 ∧
      (s.storeCommand (.port .b) (Config.mmioBase + 0x60) v).ctl.irqmask (.port .a) = 0 := by
  and_intros <;> first | decide +kernel | exact next_of (by decide +kernel)

/-- Telemetry with one junction above 105 °C, or above 115 °C, or of 3,401 W. -/
def hotTelemetry : Telemetry := { Telemetry.zero with junction := [1681, 0, 0, 0, 0] }
/-- The second. -/
def tripTelemetry : Telemetry := { Telemetry.zero with junction := [1841, 0, 0, 0, 0] }
/-- The third. -/
def loudTelemetry : Telemetry := { Telemetry.zero with power := 3400001 }

theorem wit_PowerStagesAndHealth :
    let s := staged 2 1
    let u := { s with ctl := { s.ctl with trained := false } }
    let z := staged 0 0
    let c := { s with ctl := { s.ctl with committed := some [7], romOk := some false } }
    let w := { s with ctl := { s.ctl with fwerr := true, stage := 1 } }
    let k := { s with ctl := { s.ctl with stage := 1 } }
    let at_ := fun (n cool : Nat) => { s with ctl := { s.ctl with throttle := BitVec.ofNat 6 n, coolFor := cool } }
    let hot := after (exec (.telemetryRefresh hotTelemetry) (at_ 7 0))
    let loud := fun (n : Nat) => after (exec (.telemetryRefresh loudTelemetry) (at_ n 0))
    let trip := after (exec (.telemetryRefresh tripTelemetry) s)
    s.owns (.port .a) = true ∧ s.owns (.port .b) = false ∧ 2 ≤ s.ctl.stage ∧ u.ctl.trained = false ∧ 16 * 105 < 1681 ∧ 16 * 115 < 1841 ∧
      (after (exec .powerGood c)).ctl.running = some [7] ∧ (after (exec .powerGood c)).ctl.romOk = none ∧ (after (exec .powerGood s)).mem = [] ∧
      (after (exec .powerGood s)).ctl.boots = 1 ∧ (after (exec .cxlHotReset s)).mem = s.mem ∧ (after (exec .cxlHotReset s)).ctl.stage = 0 ∧
      exec (.romCheckEnd true) z = .next { z with ctl := { z.ctl with stage := 1, fwerr := false, romOk := some true } } ∧
      exec (.romCheckEnd false) z = .next { z with ctl := { z.ctl with stage := 1, fwerr := true, romOk := some false } } ∧
      exec (.romCheckEnd true) w = .next w ∧ exec (.romCheckEnd true) k = .next s ∧
      exec (.bringUpEnd [255]) u = .next (s.fence 255) ∧ exec (.linkDown .a) s = .next (staged 2 0) ∧ exec (.linkDown .b) s = .next s ∧
      hot.ctl.throttle = 0x28 ∧ hot.ctl.irqstat = 8 ∧ hot.ctl.coolFor = 1 ∧ hot.ctl.stage = 2 ∧
      (loud 7).ctl.throttle = 0x18 ∧ (loud 7).ctl.irqstat = 0 ∧ (loud 8).ctl.throttle = 0x18 ∧ (loud 8).ctl.irqstat = 8 ∧
      (after (exec (.telemetryRefresh Telemetry.zero) (at_ 3 8))).ctl.throttle = 3 ∧
      (after (exec (.telemetryRefresh Telemetry.zero) (at_ 3 9))).ctl.throttle = 2 ∧ exec (.telemetryRefresh hotTelemetry) z = .next z ∧
      trip.ctl.stage = 1 ∧ trip.ctxs = [] ∧ trip.clusters = [] ∧ trip.ctl.irqstat.getLsbD 3 = true ∧ trip.ctl.telemetry = tripTelemetry ∧
      exec .criticalTrip s = .next s ∧ (s.crew? 255).isSome = false ∧
      ((after (exec (.controlStateEcc 255) s)).cluster 255).fenced = true ∧ (after (exec (.controlStateEcc 255) s)).mem = s.mem := by
  and_intros <;> first | decide +kernel | exact next_of (by decide +kernel)

theorem wit_PowerStagesAndHealth_events :
    let s := { sysSeat id with ctl := { (sysSeat id).ctl with telemetry := tripTelemetry, regcmd := [⟨4, 0x1000, false, 0⟩, ⟨9, 0, false, 0⟩] } }
    let t := after (exec .criticalTrip s)
    let e := after (exec (.controlStateEcc 0) s)
    let u := ((s.setCluster 0 { s.cluster 0 with fenced := true }).logDevice 6 5 (word (s.phys (clctlAddr 0))) 1).freezeCrew 0
    2 ≤ s.ctl.stage ∧ (s.region? 1).map (·.state) = some .active ∧ SMap.wf s.co.regions = true ∧ (s.co.regions.all fun e => e.1 == e.2.id) = true ∧
      (t.region? 1).map (·.state) = some .halted ∧ t.ctl.seq = s.ctl.seq + 2 ∧ t.ctl.result = 4 ∧ t.ctl.stage = 1 ∧ t.ctl.regcmd = [] ∧
      t.ctl.log.find? ((t.ctl.logTail - 1).toNat % 64) = some ⟨5, 5, 0, 0, 0⟩ ∧ s.crew? 0 = some (0, 0) ∧ s.crewRegion? 0 = some 1 ∧
      (s.ctl.logTail - s.ctl.logHead).toNat ≠ 64 ∧ (e.cluster 0).fenced = true ∧ (e.cluster 0).frozen = true ∧
      e.ctl.log.find? 0 = some ⟨6, 5, word (s.phys (clctlAddr 0)), 1, 0⟩ ∧ u.crewRegion? 0 = some 1 ∧ u.handlerRoom 0 = true ∧
      (match (u.faultEnq { u.mxWho 0 with place := some (.row (.faultQueueRetry (.notice 0))) } (leBytes 64 (controlNotice 0).body.toNat)).2 with
        | .done _ => true | _ => false) = true ∧ (e.cluster 0).handlers.length = 1 := by decide +kernel

/-- 13 R311, R312: a dispatch to a fault queue that takes the record, and to one that is full. -/
theorem wit_TakingAFault_dispatch :
    let s := (sysSeat id).setCtx 0 userCtx
    let f := words s (0x4000, [0x4800, 0x1000000000464, 0, 16])
    let r := s.backRecord userCtx 0x10000 true
    let t := s.dispatch 0 userCtx (flt .priv 0x10000) 0 false
    (s.cluster (clusterOf 0)).handlers.length < 256 ∧ s.release 0 (some .pkg) = (s, true) ∧
      (match (s.faultEnq (s.whoOf 0 userCtx) r).2 with | .done _ => true | _ => false) = true ∧
      (match (f.faultEnq (f.whoOf 0 userCtx) r).2 with | .full => true | _ => false) = true ∧
      (t.ctx? 0).isNone = true ∧ (t.cluster 0).handlers.map (·.info) = [0x200000000] ∧
      ((f.dispatch 0 userCtx (flt .priv 0x10000) 0 false).ctx? 0).map (·.st) = some (.waiting (.dispatch (flt .priv 0x10000) 0 4096 true)) := by
  decide +kernel

/-- A word decodes to an instruction, as a truth value. -/
def readsAs (w : Word32) (i : Instr) : Bool := match decodeSwarm w with | .ok j => decide (j = i) | .error _ => false
/-- A word decodes to none. -/
def readsNone (w : Word32) : Bool := match decodeSwarm w with | .ok _ => false | .error _ => true
/-- The bits of an op decode to it. -/
def opReads (cls : BitVec 2) (opc : BitVec 6) (tlen : BitVec 2) (pri : Reg) (tail : BitVec 64) (i : Instr) : Bool :=
  match decodeOp ⟨cls, opc, tlen, pri, tail⟩ with | .ok j => decide (j = i) | .error _ => false
/-- The bits of an op decode to none. -/
def opNone (cls : BitVec 2) (opc : BitVec 6) (tlen : BitVec 2) (pri : Reg) (tail : BitVec 64) : Bool :=
  match decodeOp ⟨cls, opc, tlen, pri, tail⟩ with | .ok _ => false | .error _ => true

/-- 04 Worked encodings. -/
theorem test_words_04 :
    readsAs 0x00A63801 (.add 5 6 7) && readsAs 0x78220010 (.ld 1 2 16) && readsAs 0x9C220346 (.memordLd 1 2 .die) &&
    readsAs 0xA0895280 (.amoAdd 4 9 10 .d .crew .rel) && readsAs 0x4060FFFD (.beq 3 0 0xFFFD) && readsAs 0xD4000002 .endTask &&
    readsNone 0 && readsNone 0xFFFFFFFF := by decide +kernel

/-- 05 Worked encodings, and the words that it calls ILLEGAL. -/
theorem test_words_05 :
    readsAs 0x008531DA (.sel 4 5 6 7) && readsAs 0x012A581C (.crng 9 10 11) && readsAs 0x0109505E (.peerWrap 8 9 10) && readsAs 0x001F001F (.jr 0 31) &&
    readsAs 0x00EC0020 (.swapws 7 12) && readsAs 0x2042803F (.srai 2 2 63) && readsAs 0x246402C8 (.bfx 3 4 11 8) && readsAs 0x18A0BEEF (.ldhi 5 0xBEEF) &&
    readsAs 0x5C000010 (.call 16) && readsNone 0x008531C0 && readsNone 0x000100DE && readsNone 0x0000089E && readsNone 0x00200853 && readsNone 0x18210000 := by decide +kernel

/-- 06 Worked encodings, and the words that it calls ILLEGAL. -/
theorem test_words_06 :
    readsAs 0x6464FFFF (.lbu 3 4 0xFFFF) && readsAs 0x90C10020 (.sq 6 1 32) && readsAs 0x9CA8048B (.memordSd 5 8 .pkg) &&
    readsAs 0x98A63A80 (.lbit 5 6 7 true 2) && readsAs 0xA089500A (.amocas 4 9 10 .d .ctx .none) && readsAs 0xA0432029 (.amoFadd 2 3 4 .w .ctx .none) &&
    readsAs 0xA40004C0 (.fence .pkg .acqrel) && readsAs 0xA4000301 (.icsync .die) && readsAs 0xA8A63843 (.fma 5 6 7 .dyn .s) &&
    readsAs 0xA8A6A007 (.fcvt 5 6 .s_l .dyn) && readsAs 0xB0A638C6 (.pdot 5 6 7 false .bf) && readsAs 0xB4032001 (.laca 3 4 .s) &&
    readsNone 0x9CA8000B && readsNone 0xA089500B && readsNone 0xA8A63AC3 && readsNone 0xA8A6384B && readsNone 0xA8A6A0C7 && readsNone 0xB0A63946 &&
    readsNone 0xB40320C1 := by decide +kernel

/-- 07 Worked encodings, and the words that it calls ILLEGAL. -/
theorem test_words_07 :
    readsAs 0xC0A63800 (.topen 5 6 7) && readsAs 0xC0A63A01 (.trow 5 6 7 8) && readsAs 0xC0A63804 (.seal 5 6 7) && readsAs 0xC0060005 (.tfree 6) &&
    readsAs 0xC0A60086 (.thdr 5 6 2) && readsAs 0xC4895000 (.xcp 4 9 10) && readsAs 0xC8620000 (.ctwait 3 2) && readsAs 0xC8620043 (.ctrd 3 2 1) &&
    readsAs 0xCC895040 (.enq 4 9 10 .e16) && readsAs 0xD0890040 (.ldfNw 4 9) && readsAs 0xD0495001 (.stf 2 9 10) && readsAs 0xD4895040 (.spawnPeer 4 9 10) &&
    readsAs 0xD4800041 (.suspRequeue 4) && readsNone 0xC8620143 && readsNone 0xD0A90000 && readsNone 0xC0A63805 && readsNone 0xCC895100 := by
  decide +kernel

/-- 08 Worked encodings, and the words that it calls ILLEGAL. -/
theorem test_words_08 :
    readsAs 0xE0A60000 (.gld 5 6 .addS) && readsAs 0xE0895181 (.gldm 4 9 10 .maxS) && readsAs 0xE0432042 (.gst 2 3 4 .w) && readsAs 0xE0E80003 (.garr 7 8) &&
    readsAs 0xE0E83804 (.gwait 7 8 7) && readsAs 0xE4032000 (.evsend 3 4) && readsAs 0xE4A60001 (.wait 5 6) && readsAs 0xE4060002 (.yield 6) &&
    readsAs 0xE8A00014 (.rdsr 5 .rank) && readsAs 0xEC090000 (.wrsr 9 .fcsr) && readsAs 0xF0000140 (.trap 5) && readsAs 0xF0000001 .eret &&
    readsAs 0xF0000002 .nop && readsNone 0xE0A602C0 && readsNone 0xE0A63800 && readsNone 0xE8A00030 && readsNone 0xEC090010 && readsNone 0xF0000003 := by
  decide +kernel

/-- Words of other majors, written field by field from 04 R85, R89 to R92; 06 R140, R147, R150. -/
theorem test_words_by_field :
    readsAs (0x16#6 ++ 0x3FFFFFF#26) (.jmp 0x3FFFFFF) && readsAs (0x25#6 ++ 2#5 ++ 9#5 ++ 0x8000#16) (.pfl .tlb 9 0x8000) &&
    readsAs (0x26#6 ++ 5#5 ++ 6#5 ++ 7#5 ++ 6#5 ++ 1#6) (.sbit 5 6 7 6) && readsAs (0x27#6 ++ 6#5 ++ 9#5 ++ 0#5 ++ 6#3 ++ 1#2 ++ 7#6) (.memordLq 6 9 .sys) &&
    readsAs (0x2B#6 ++ 5#5 ++ 6#5 ++ 0#5 ++ (0#1 ++ 4#3 ++ 0#1) ++ 1#6) (.fsqrt 5 6 .rdn .d) &&
    readsAs (0x2C#6 ++ 5#5 ++ 6#5 ++ 31#5 ++ 0#5 ++ 8#6) (.pshuf 5 6 31) && readsAs (0x31#6 ++ 1#5 ++ 2#5 ++ 3#5 ++ 0#5 ++ 1#6) (.wdq 1 2 3) &&
    readsAs (0x2D#6 ++ 5#5 ++ 6#5 ++ 0#5 ++ 0#5 ++ 2#6) (.lacr 5 6) && readsAs (0x33#6 ++ 1#5 ++ 2#5 ++ 0#5 ++ 0#5 ++ 2#6) (.qinfo 1 2) &&
    readsAs (0x09#6 ++ 3#5 ++ 4#5 ++ (1#1 ++ 0#3 ++ 63#6 ++ 1#6)) (.bfi 3 4 63 1) := by decide +kernel

/-- Ops of the four classes, written field by field from 09 R213, R216 to R220: a tail of form H holds F, PE, P, B, A from bit 15 down. -/
theorem test_ops_by_field :
    opReads 0 0x01 1 7 ((0#48 ++ (0#2 ++ 0#1 ++ 0#3 ++ 0x13#5 ++ 15#5) : BitVec 64)) (.mma 7 15 (.b 3)) &&
    opReads 0 0x07 3 2 ((0x10#32 ++ ((0#3 ++ 1#2 ++ 2#3 ++ 1#2 ++ 3#8) ++ 0#1 ++ 0#3 ++ 0#5 ++ 31#5) : BitVec 64)) (.cstore 2 31 0x10 3 1 2 1) &&
    opReads 1 0x08 2 3 ((0#32 ++ (0#8 ++ 3#5 ++ 1#1 ++ 5#3 ++ 0#5 ++ 7#5 ++ 6#5) : BitVec 64)) (.vcmp 3 6 7 .un .s (some 5)) &&
    opReads 1 0x0E 3 30 ((0xFFFFFFFC#32 ++ (4#18 ++ 0#1 ++ 0#3 ++ 0#5 ++ 9#5) : BitVec 64)) (.vld 30 9 0xFFFFFFFC .bu none) &&
    opReads 2 0x05 1 4 ((0#48 ++ (0#2 ++ 1#1 ++ 7#3 ++ 0#5 ++ 8#5) : BitVec 64)) (.xtanh 4 8 (some 7)) && opReads 3 0x02 0 15 0 (.give 15) &&
    opReads 3 0x0D 2 9 ((0#48 ++ (1#1 ++ 30#5 ++ 1023#10) : BitVec 64)) (.brc 9 true 1023 30) &&
    opReads 3 0x10 2 1 ((0#32 ++ (63#8 ++ 0#5 ++ 0#1 ++ 0#3 ++ 0#5 ++ 0#5 ++ 0#5) : BitVec 64)) (.signal 1 63) &&
    opReads 3 0x11 2 1 ((0#32 ++ (0#8 ++ 9#5 ++ 0#1 ++ 0#3 ++ 0#5 ++ 0#5 ++ 0x1F#5) : BitVec 64)) (.hdrf 1 (.c 7) .fill) && opReads 3 0x13 0 0 0 .snop &&
    opNone 0 0x00 0 0 0 && opNone 3 0x18 0 0 0 && opNone 0 0x04 0 4 0 && opNone 3 0x13 0 1 0 && opNone 2 0x07 1 0 0 &&
    opNone 0 0x07 3 2 ((0x10#32 ++ ((0#3 ++ 0#2 ++ 0#3 ++ 0#2 ++ 6#8) ++ 0#1 ++ 0#3 ++ 0#5 ++ 31#5) : BitVec 64)) &&
    opNone 0 0x07 3 2 ((0x10#32 ++ ((0#3 ++ 0#2 ++ 0#3 ++ 3#2 ++ 1#8) ++ 0#1 ++ 0#3 ++ 0#5 ++ 31#5) : BitVec 64)) := by decide +kernel

/-- Every check of WellFormed refuses a term. -/
theorem test_ill_formed_refused :
    ([.lq 1 2 0, .sq 31 2 0, .memordLq 3 4 .crew, .memordSq 5 6 .sys, .amoAdd 1 2 3 .d .core .none, .amoAnd 1 2 3 .d .sys .none,
      .amoOr 1 2 3 .w .pkg .none, .amoXor 1 2 3 .d .die .none, .amoMin 1 2 3 .d .crew .none, .amoMax 1 2 3 .w .core .none,
      .amoMinu 1 2 3 .d .domain .none, .amoMaxu 1 2 3 .w .sys .none, .amoSwp 1 2 3 .d .core .none, .amoFadd 1 2 3 .d .core .none,
      .amocas 1 2 3 .d .core .none, .fence .pkg .none, .fcvt 1 2 .d_s .rne] : List Instr).all (fun i => !i.wf) &&
    ([.padd 1 2 3 true false .b, .padd 1 2 3 true false .s, .psub 1 2 3 false true .bf, .pmul 1 2 3 true false .w, .pfma 1 2 3 true true .s,
      .pmin 1 2 3 true .s, .pmax 1 2 3 true .bf, .pdot 1 2 3 true .s, .pcvt 1 2 3 .s_bfl, .ctrd 1 2 5, .ldf 3 4, .ldfNw 31 4, .wrsr 1 .cycle,
      .mma 1 2 (.c 3), .mmaz 1 2 (.c 0), .cstore 1 2 0 0 0 0 0, .cstore 1 2 0 1 3 0 0, .cstore 1 2 0 1 0 6 0,
      .vcmp 1 2 3 .un .w none] : List Instr).all (fun i => !i.wf) := by decide +kernel

theorem wit_SwarmWordsRoundTrip :
    (Instr.beq 3 0 0xFFFD).WellFormed ∧ encodeSwarm (.beq 3 0 0xFFFD) = some 0x4060FFFD ∧ readsAs 0x4060FFFD (.beq 3 0 0xFFFD) = true := by
  decide +kernel

theorem wit_MxOpsRoundTrip :
    (Instr.mma 7 15 (.b 3)).WellFormed ∧ encodeOp (.mma 7 15 (.b 3)) = some ⟨0, 1, 1, 7, 0x26F⟩ ∧
      opReads 2 0x05 1 4 0x1C08 (.xtanh 4 8 none) = true ∧ encodeOp (.xtanh 4 8 none) = some ⟨2, 5, 1, 4, 0x1C08 &&& ~~~0x1C00⟩ := by decide +kernel

/-- Slot 0 of core 0, whose turn comes, has the word w at its PC. -/
def seated (w : Word32) : State := State.reset.withFetchWord 32 w.toNat
/-- mx0 of cluster 0, whose turn comes, has a line of one op at its MXPC, and a value in s1. -/
def seatedOp (i : Instr) : State :=
  let s := State.reset.withFetchWord 512 ((encodeOp i).elim 0 (fun x => (lineOfOp x).toNat))
  s.setMx 0 .mx0 { s.mx 0 .mx0 with s := [(1, 1)] }
/-- A step's outcome is that of an instruction, with nobody acting after it. -/
def sameStep (r q : Host.Outcome State Fault Refusal) : Bool := match r, q with | .next u, .next v => decide (u = { v.settleRow with actor := .device }) | _, _ => false
/-- A unit's bundle is the ops given. -/
def bundleOf (m : Mx) (l : List Instr) : Bool := match m.fetch with | .ok q => decide (q = l) | .error _ => false
/-- After a step, mx0 of cluster 0 has a run state, a line, and a bundle count. -/
def mxGoes (r : Host.Outcome State Fault Refusal) (st : MxState) (line count : Nat) : Bool :=
  match r with | .next t => decide ((t.mx 0 .mx0).st = st) && (t.mx 0 .mx0).line == line && (t.mx 0 .mx0).count == count | _ => false

theorem wit_StepRunsDecodedInstruction_words :
    let s := seated 0x00A63801
    let z := seated 0
    let p := s.setCore 0 { s.core 0 with tlb := [⟨1, 1, 16, word 0x1000F⟩] }
    let at_ := fun (v : State) => ({ v with turns := [] } : State).atPlace (.core 0)
    let t := at_ s
    s.turns = [.core 0] ∧ s.due.isNone = true ∧ s.tooLate (.core 0) = false ∧ t.nextReady 0 = some 0 ∧ t.ctx? 0 = some seatCtx ∧
      t.fetch 0 seatCtx = (t, .word 0x00A63801) ∧ readsAs 0x00A63801 (.add 5 6 7) = true ∧
      ((at_ z).fetch 0 seatCtx).2 = .word 0 ∧ readsNone 0 = true ∧ ((at_ p).fetch 0 seatCtx).2 = .failed (flt .xlateProt 0x10000 1 2) ∧
      p.due.isNone = true ∧ (at_ p).nextReady 0 = some 0 ∧
      t.xlate (t.whoOf 0 seatCtx) Need.fetch anyPlace 0x10000 = (t, .ok 0x10000) ∧ (t.core 0).icache.find? 0x400 = some 0x00A63801 ∧
      sameStep (step s) (exec (.add 5 6 7) { (t.dropWaits 0).issued 0 with actor := .context 0 0x00A63801 }) = true ∧
      ((after (step z)).ctx? 0).map (·.trapinfo) = some 0x100000000 ∧
      ((after (step p)).ctx? 0).map (fun x => (x.trappc, x.trapaddr)) = some (0x10000, 0x10000) := by
  decide +kernel

/-- A context whose instruction, ADD w5, w6, w7, has been held and is to be made again. -/
def heldSeat : State := (seat 0 [(6, 3), (7, 4)]).setCtx 0 { seatCtx with st := .retry, iw := 0x00A63801 }

theorem wit_StepRunsDecodedInstruction_ops :
    let s := { outSeat with turns := [.op .criticalTrip], beat := 1 }
    let r := { heldSeat with turns := [.op (.memoryReply 0 .here)], beat := 1 }
    let q := ({ heldSeat with beat := 1 } : State).atPlace (.op (.memoryReply 0 .here))
    let i : Instr := .memoryReply 0 .here
    let t1 := after (exec i { q with actor := .device, row := some (.row (rowKey i), false) })
    let t2 := after (exec (.add 5 6 7) { t1.settleRow with actor := .context 0 0x00A63801, row := none })
    s.due.isNone = true ∧ s.tooLate (.op .criticalTrip) = false ∧
      sameStep (step s) (exec .criticalTrip { ({ s with turns := [] } : State).atPlace (.op .criticalTrip) with
        actor := .device, row := some (.row (rowKey .criticalTrip), false) }) = true ∧
      r.due.isNone = true ∧ r.tooLate (.op (.memoryReply 0 .here)) = false ∧ q.remade 0 = some (0x00A63801, .add 5 6 7) ∧
      goesOn (exec (.add 5 6 7) { t1.settleRow with actor := .context 0 0x00A63801, row := none }) = true ∧
      goesTo (step r) { t2.settleRow.settle 0 with actor := .device } = true ∧ (after (step r)).reg seatCtx 5 = 7 := by
  decide +kernel

theorem wit_StepRunsDecodedInstruction_bundles :
    let a := seatedOp .snop
    let b := seatedOp (.vabs 3 4 .s none)
    let f := seatedOp (.sld 2 1 0)
    (a.units.findSome? a.mxEvent).isNone = true ∧ a.units.find? a.triesNow = some (0, .mx0) ∧
      bundleOf (a.mx 0 .mx0) [.snop] = true ∧ bundleOf (b.mx 0 .mx0) [.vabs 3 4 .s none] = true ∧ bundleOf (f.mx 0 .mx0) [.sld 2 1 0] = true ∧
      inS .snop = true ∧ inS (.vabs 3 4 .s none) = false ∧ inS (.sld 2 1 0) = true ∧
      a.opHeld 0 (a.mx 0 .mx0) .snop = false ∧ a.giveHeld 0 .mx0 .snop = false ∧ (a.mx 0 .mx0).sldFree ≤ a.mnow ∧
      goesTo (exec .snop { a with actor := .mx 0 .mx0 .check 0 }) { a with actor := .mx 0 .mx0 .check 0 } = true ∧
      mxGoes (step a) .run 1 1 = true ∧ mxGoes (step b) .run 1 1 = true ∧ mxGoes (step f) .faulted 0 0 = true := by
  decide +kernel

/-- A store of eight bytes in the word at the PC. -/
theorem wit_StepKeepsMemoryCanonical :
    let s := (seated 0x8CC50000).setReg seatCtx 5 0x10040 |>.setReg seatCtx 6 0x7F
    memWf s.mem = true ∧ (match step s with | .next t => memWf t.mem && ((t.core 0).path.length == 1) | _ => false) = true := by decide +kernel

/-- 05 R123: an address that is no workspace, a pool workspace that is not home, and one live in another context. -/
theorem wit_LocateAndSwapWorkspace_faults :
    let x : Ctx := { seatCtx with wp := word (wsAddr 0 0x20000) }
    let s := (seat 0 [(6, 8), (7, word (wsAddr 0 256)), (8, word (wsAddr 0 0x20000))]).setCtx 3 x
    (s.acts 0 0 seatCtx ∧ s.lets 0 seatCtx (.swapws 5 6) [] false [6]) ∧ s.lets 0 seatCtx (.swapws 5 7) [] false [7] ∧
      s.lets 0 seatCtx (.swapws 5 8) [] false [8] ∧ ownWorkspace 0 8 = false ∧ poolIndex 0 (word (wsAddr 0 256)) = some 1 ∧
      word (wsAddr 0 256) ≠ seatCtx.home ∧ ownWorkspace 0 (word (wsAddr 0 0x20000)) = true ∧ poolIndex 0 (word (wsAddr 0 0x20000)) = none ∧
      s.liveIn (wsAddr 0 0x20000) = some 3 ∧
      exec (.swapws 5 6) s = s.faults 0 seatCtx ⟨5, 8, 6, 0, false, 0⟩ 0 ∧
      exec (.swapws 5 7) s = s.faults 0 seatCtx ⟨5, word (wsAddr 0 256), 6, 0, false, 0⟩ 0 ∧
      exec (.swapws 5 8) s = s.faults 0 seatCtx (flt .wsLive (word (wsAddr 0 0x20000))) 0 := by
  and_intros <;> first | decide +kernel | exact next_of (by decide +kernel)

/-- 11 R260, R261: the line of the L1D, which may be older than memory; and memory after the core's own entry of the line. -/
theorem wit_LoadsComplete_bytes :
    let s := (seat 0).poke 0x10100 [9, 9]
    let l := s.setCore 0 { s.core 0 with l1d := [(0x404, 0x0504)] }
    let p := s.setCore 0 { s.core 0 with path := [⟨0x10101, .store [7], 1, 0⟩], pathNext := 1 }
    s.place 0x10100 = .hbm ∧ s.registered 0x404 = false ∧ (l.core 0).l1d.find? 0x404 = some 0x0504 ∧
      l.loadPart 0 (some (.ctx 0)) false 0x10100 2 = (l, .bytes [4, 5]) ∧ (l.loadPart 0 (some (.ctx 0)) true 0x10100 2).2 = .bytes [9, 9] ∧
      (p.core 0).path.filter (fun e => e.pa / 64 == 0x404 && p.before 0 (some (.ctx 0)) e) = (p.core 0).path ∧
      (p.loadPart 0 (some (.ctx 0)) false 0x10100 2).2 = .bytes [9, 7] ∧ (p.loadPart 0 (some (.ctx 0)) false 0x10100 2).1.mem = memWrite s.mem 0x10101 [7] := by
  decide +kernel

/-- 11 R261: an atomic's line leaves the L1D at issue. -/
theorem wit_AtomicsCompleteOrFault_issue :
    let s := seat 0 [(6, 0x10104)]
    let l := s.setCore 0 { s.core 0 with l1d := [(0x404, 0), (0x405, 0)] }
    (l.checkPart (l.whoOf 0 seatCtx) Need.rmw anyPlace 0x10104 4).2 = .ok 0x10104 ∧ l.place 0x10104 = .hbm ∧
      ((l.forgetIssued 0 seatCtx Need.rmw 0x10104 4).core 0).l1d = [(0x405, 0)] := by
  decide +kernel

/-- 02 R39, R51, R52; 06 R142 to R146. -/
theorem wit_ScalarFloatResults_values :
    fp32.decode 0x7FA00000 = .nan ∧ fp32.snan 0x7FA00000 = true ∧ fp32.addOp 0 0x7FA00000 0x3F800000 = (0x7FC00000, 16) ∧
      fp32.addOp 0 0x7F800000 0xFF800000 = (0x7FC00000, 16) ∧ fp32.mulOp 0 0 0x7F800000 = (0x7FC00000, 16) ∧
      fp32.fmaOp 0 0x7F800000 0 0x7FC00000 = (0x7FC00000, 16) ∧ fp32.addOp 3 0x3F800000 0xBF800000 = (0x80000000, 0) ∧
      fp32.mulOp 0 0x80000000 0x3F800000 = (0x80000000, 0) ∧ fp32.minMax false 0 0x80000000 = (0x80000000, 0) ∧
      fp32.minMax true 0x80000000 0 = (0, 0) ∧ fp32.minMax false 0x7FC00000 0x3F800000 = (0x3F800000, 0) ∧
      fp32.cmpOp .le 0x80000000 0 = (true, 0) ∧ fp32.cmpOp .lt 0x80000000 0 = (false, 0) ∧ fp32.cmpOp .eq 0x7FC00000 0 = (false, 0) ∧
      fp32.cmpOp .le 0x7FC00000 0 = (false, 16) ∧ fp32.cmpOp .un 0x7FA00000 0 = (true, 16) ∧
      fp32.sgnOp .x 0xBF800000 0xC0000000 = 0x3F800000 ∧ fp32.sgnOp .n 0x3F800000 0x40000000 = 0xBF800000 ∧
      cvtOp .s_bf 0 0x3F80 = (0x3F800000, 0) ∧ convert fp32 e4m3 0 0x7F800000 = (0x7E, 5) ∧ convert fp32 fp4 0 0x7FC00000 = (0, 16) ∧
      cvtOp .w_s 0 0x40200000 = (2, 1) ∧ cvtOp .wu_s 0 0xBF800000 = (0, 16) ∧ cvtOp .l_s 0 0xFF800000 = (0x8000000000000000, 16) ∧
      cvtOp .w_s 0 0x7FC00000 = (0, 16) ∧ cvtOp .d_l 0 0xFFFFFFFFFFFFFFFF = (0xBFF0000000000000, 0) := by
  decide +kernel

/-- 06 R142, R152, R153. -/
theorem wit_PackedLaneResults_values :
    word (dotInt 8 false 1 0xFFFFFFFFFFFFFFFF 0x0202020202020202) = 0xFFFFFFFFFFFFFFF1 ∧
      word (dotInt 32 true 0 0xFFFFFFFFFFFFFFFF 0x0000000100000002) = 0x2FFFFFFFD ∧
      dotFloat fp32 32 0 0x3F800000 0x3F80000040000000 0x4040000040800000 = (0x41400000, 0) ∧
      dotFloat fp32 32 0 0 0x7F80000000000000 0 = (0x7FC00000, 16) ∧ dotFloat fp32 32 0 0x7FC00000 0 0 = (0x7FC00000, 0) ∧
      pcvtOp .b_h 0xFF7F01007FFF0001 0x8000 = (0x80807F7F01, 0) ∧
      pcvtOp .s_bfh 0x3F80400000000000 0 = (0x3F80000040000000, 0) ∧ pcvtOp .e4_bf 0x0000000000003F80 0 = (0x38, 0) := by
  decide +kernel

/-- 06 R147, R149. -/
theorem wit_SpecialFunctionUnit_values :
    sfuOp .div fp32 0 0x3F800000 0x40400000 = (0x3EAAAAAB, 1) ∧ sfuOp .div fp32 0 0xBF800000 0 = (0xFF800000, 8) ∧
      sfuOp .div fp32 0 0 0 = (0x7FC00000, 16) ∧ sfuOp .sqrt fp32 0 0x40000000 0 = (0x3FB504F3, 1) ∧ sfuOp .sqrt fp32 0 0xBF800000 0 = (0x7FC00000, 16) ∧
      sfuOp .rsq fp32 0 0x40800000 0 = (0x3F000000, 0) ∧ sfuOp .rcp fp32 0 0x80000000 0 = (0xFF800000, 8) ∧
      sfuOp .exp2 fp32 0 0x40400000 0 = (0x41000000, 0) ∧ sfuOp .log2 fp32 0 0x41000000 0 = (0x40400000, 0) ∧
      sfuOp .log2 fp32 0 0 0 = (0xFF800000, 8) := by
  decide +kernel

/-- An accumulator of one FP32 element. -/
def oneAcc (v : Word32) : Acc := ⟨resultHdr 1 1 1 none, 0, [[v]], false⟩

/-- 02 R54; 03 R63; 10 R237, R241, R243. -/
theorem wit_MxMatrixOps_values :
    let a := oneAcc 0x3FC00000
    let b := oneAcc 0x40400000
    (match inferFmt oneTile.hdr oneTile.hdr with | .ok f => f == 1 | .error _ => false) = true ∧ vRows oneTile.hdr = 1 ∧ vCols oneTile.hdr = 1 ∧
      (mmaResult oneTile oneTile (some (oneAcc 0x3F800000)) false).rows = [[0x40A00000]] ∧
      storeOk (hEfmt a.hdr) 3 0 0 0 = true ∧ (storeBytes a (storeHdr a 3 0 0 0)).take 2 = [0x00, 0x3E] ∧
      storeOk (hEfmt a.hdr) 4 0 2 1 = true ∧ (storeBytes b (storeHdr b 4 0 2 1)).getD 0 0 = 0x7C ∧ (storeBytes b (storeHdr b 4 0 2 1)).getD 32 0 = 120 ∧
      storeOk (hEfmt a.hdr) 0x12 0 0 0 = true ∧ (storeBytes b (storeHdr b 0x12 0 0 0)).getD 0 0 = 6 ∧ (storeBytes b (storeHdr b 0x12 0 0 0)).getD 16 0 = 0x80 := by
  decide +kernel

/-- 10 R243: of the four bricks of two rows by sixty-four columns, the two best. -/
theorem wit_MxMatrixOps_bitmap :
    let row := List.replicate 16 (0x3F800000 : Word32) ++ List.replicate 16 0x40000000 ++ List.replicate 16 0xC0400000 ++ List.replicate 16 0x40000000
    let a : Acc := ⟨resultHdr 1 2 64 none, 0, [row, row], false⟩
    hBricks a.hdr = 4 ∧ brickMap a 2 = 0xA :: List.replicate 31 0 ∧ brickMap a 3 = 0xB :: List.replicate 31 0 := by
  decide +kernel

/-- A context whose write of two parts has been agreed to by device 3, or whose parts devices 3 and 4 are to answer. -/
def partCtx (what : RemoteWhat) : Ctx :=
  { seatCtx with st := .remote ⟨0, 0x10000, 1, 3 * Config.localEnd + 0x103E, 0, [], [], what, false⟩, iw := 0x123 }

/-- 06 R126; 14 R333, R338; 07 R183: the parts of a write, a write refused by the host, and the answer to a ring entry. -/
theorem wit_WhatComesLater_parts :
    let g := (seat 0).setCtx 0 (partCtx (.agree 2))
    let w := (seat 0).setCtx 0 (partCtx (.written [4 * Config.localEnd]))
    let l := (seat 0).setCtx 0 (partCtx (.written []))
    let e := (seat 0).setEngine 5 { Engine.fresh with posted := [⟨0, Config.hostBase + 0x40, 8⟩] }
    let q : RingWrite := ⟨some (.row .wdqGrant), 0x10800, 3 * Config.localEnd, 8, none⟩
    let r := { seat 0 with io := { (seat 0).io with rings := [q] }, row := some (.row .wdqGrant, false) }
    let a := { seat 0 with io := { (seat 0).io with rings := [{ q with answer := some (.fault 5 3 2) }] }, row := some (.row .wdqGrant, false) }
    g.ctx? 0 = some (partCtx (.agree 2)) ∧ Reply.refuses .here = false ∧ e.place (Config.hostBase + 0x40) = .host ∧
      exec (.memoryReply 0 .here) g = .next ((g.dropToken 0 0).setCtx 0 { partCtx (.agree 2) with granted := [(3 * Config.localEnd + 0x103E, 2)], st := .retry }) ∧
      ((after (exec (.memoryReply 0 .here) w)).ctx? 0).map (·.st) =
        some (.remote ⟨0, 0x10000, 1, 4 * Config.localEnd, 0, [], [], .written [], false⟩) ∧
      exec (.memoryReply 0 (.fault 7 0 0)) l = .next ((l.dropToken 0 0).wake 0) ∧
      exec (.postedWriteAck (.engine 5) 0 (.fault 5 6 0)) e =
        .next (((e.setEngine 5 Engine.fresh).logFabric 4 7 0 (Config.hostBase + 0x40)).endCopies 5) ∧
      (after (exec (.postedWriteAck .ring 0 .here) r)).io.rings = [{ q with answer := some .here }] ∧ r.asker none = some (.row .wdqGrant) ∧
      (a.enq (regionWho a 1 none) 0 8 []).2 = .fault ⟨5, 0x10802, 3, 3, false, 0⟩ := by
  and_intros <;> first | decide +kernel | exact next_of (by decide +kernel)

/-- 14 R333, R334, R336: a write tested and made or given up; what a lost copy names; and the posted writes of one port. -/
theorem wit_OutsideAccesses_promises :
    let s := outSeat
    let a := padAddr 0 0x100
    let ask (k : DxlKind) : DxlRequest := ⟨3, 1, true, false, a, k⟩
    let p : State := { s with io := { s.io with promises := [⟨3, a, 2⟩] } }
    let far := 3 * Config.localEnd + 0x20000
    let w := lostSeat
    let cmd : CopyCmd := ((w.engine 0).queue).getD 0 ⟨[], 0, 0, 0, 0, 0, false, 0, false, 0, 0, false, [], [], none, [], []⟩
    let q : State := { s with io := { s.io with posts := [(.port .a, .work 0 0)] } }
    s.targetFault ⟨none, none, none, 1, 0, false, none, none, none, none⟩ Need.store a 2 = none ∧ placeLocal a = .pad 0 0x100 ∧
      s.performRemote (ask (.check 2)) = (p, some .done) ∧ p.performRemote (ask (.forgo 2)) = (s, some .done) ∧
      p.agreed (ask (.write [1, 2])) 2 = true ∧ s.agreed (ask (.write [1, 2])) 2 = false ∧
      p.performRemote (ask (.write [1, 2])) = (s.poke a [1, 2], some .done) ∧
      cmd.asked = some far ∧ w.place far = .remote 3 ∧ cmd.src 0 = word far ∧
      lostCopyAt 3 w 0 0 = (w.count (.die 0 1) 8 1).endCopy 0 0 { cmd with asked := none, got := [] }
        (some (6, word far, 0, 0xFF000000000400)) ∧
      exec (.workRequestPost (.port .a) 5 9) q = .next { q with io := { q.io with posts := [(.port .a, .work 0 0), (.port .a, .work 5 9)] } } ∧
      exec (.bar2Write .a a [1]) q = .next { q with io := { q.io with posts := [(.port .a, .work 0 0), (.port .a, .bar2 a [1])] } } := by
  and_intros <;> first | decide +kernel | exact next_of (by decide +kernel)

/-- 08 R200; 03 R76: a result for a guarded destination is dropped. -/
theorem wit_EnginesAndRegionCommands_gldm_dropped :
    let q : Gldm := ⟨0, 1, 0, .addW, 0x100, [⟨0, 0, 0, true⟩], [⟨0, 3, none⟩], 0, 0x440, 5, false⟩
    let b := busyTag (seat 0) 5 1
    let s := { b.setCluster 0 ((b.cluster 0).tagAll 0x440 32 3) with gldms := [q] }
    (s.cluster 0).takes q.sup q.dest 64 = false ∧ s.unreadAway q.members q.got = [] ∧ s.unreadHere q.members q.got = [] ∧
      exec (.gldmResult 0 []) s = .next (State.tagDown { s with gldms := [] } 0 5) := by
  and_intros <;> first | decide +kernel | exact next_of (by decide +kernel)

/-- 14 R336, R341; 13 R307: a store behind another of its port, a doorbell behind one of its slot, and an invalidation that waits. -/
theorem wit_ControlRegisterCommands_held :
    let s := outSeat
    let q : State := { s with io := { s.io with posts := [(.port .a, .work 0 0)] } }
    let z := windowSeat
    let first : Bell := ⟨.service, 4095, 1, 0, 1, [], []⟩
    let y : State := { z with io := { z.io with bells := [first] } }
    let mine : Bell := ⟨.port .b, 4095, 1, 0x1000000004000, 1, [11, 22, 0, 0, 0, 0, 0, 0], []⟩
    let w := s.setCtx 0 awayCtx
    let v : Word := 0x200000000000000
    q.posting (.port .a) = true ∧ s.posting (.port .a) = false ∧
      exec (.registerWrite (.port .a) (Config.mmioBase + 0x60) 1) q =
        .next { q with io := { q.io with posts := [(.port .a, .work 0 0), (.port .a, .reg (Config.mmioBase + 0x60) 1)] } } ∧
      (y.bellOf (.port .b) 4095 1).2 = mine ∧ (y.bellOf (.port .b) 4095 1).1.bellReady mine = false ∧
      (after (exec (.doorbell (.port .b) 4095 1) y)).io.posts = [(.port .b, .reg (Config.mmioBase + 0x20000000 + 256 * 4095 + 8) 1)] ∧
      (after (exec (.doorbell (.port .b) 4095 1) y)).io.bells = [first, mine] ∧
      (after (exec (.tlbinvAll (.port .b)) w)).io.posts = [(.port .b, .reg (Config.mmioBase + 0x200) v)] ∧
      (match ({ w with row := some (.storer (.port .b), false) } : State).invalidate none 2 0 0 with | (_, .held) => true | _ => false) = true := by
  and_intros <;> first | decide +kernel | exact next_of (by decide +kernel)

end Sys2Proof.Tests
end

/-! Chapter 05, words: how the decoder takes a word of each format apart (04 R85), and when it reads an instruction from it. -/
namespace Sys2Proof.Machine

@[simp] theorem fieldsOf_aluWord (d a b m : Reg) (f : BitVec 6) : fieldsOf (aluWord d a b m f) = ⟨0, d, a, b, m, f⟩ := by
  simp [-Nat.reduceAdd, fieldsOf, aluWord, BitVec.extractLsb'_append_eq_of_le, BitVec.extractLsb'_append_eq_right]

@[simp] theorem fieldsOf_immWord (maj : BitVec 6) (d a : Reg) (k : BitVec 16) : fieldsOf (immWord maj d a k) = immFields maj d a k := by
  simp [-Nat.reduceAdd, fieldsOf, immWord, immFields, BitVec.extractLsb'_append_eq_of_le, BitVec.extractLsb'_append_eq_of_add_le]

@[simp] theorem fieldsOf_offWord (maj : BitVec 6) (o : BitVec 26) : fieldsOf (maj ++ o) = offFields maj o := by
  simp [-Nat.reduceAdd, fieldsOf, offFields, BitVec.extractLsb'_append_eq_of_le, BitVec.extractLsb'_append_eq_of_add_le]

@[simp] theorem immOf_immFields (maj : BitVec 6) (d a : Reg) (k : BitVec 16) : immOf (immFields maj d a k) = k := by
  simp [-Nat.reduceAdd, immOf, immFields, BitVec.extractLsb'_append_extractLsb'_eq_extractLsb']

@[simp] theorem offOf_offFields (maj : BitVec 6) (o : BitVec 26) : offOf (offFields maj o) = o := by
  simp [-Nat.reduceAdd, offOf, offFields, BitVec.extractLsb'_append_extractLsb'_eq_extractLsb']

theorem reads_iff {w : Word32} {i : Instr} : reads w i ↔ decodeFields (fieldsOf w) = .ok i ∧ i.wf = true := by
  unfold reads decodeSwarm
  cases decodeFields (fieldsOf w) with
  | error r => simp
  | ok j =>
    by_cases hj : j.wf = true
    · simp only [hj, if_true, Except.ok.injEq, iff_self_and]
      rintro rfl
      exact hj
    · simp only [hj, Bool.false_eq_true, if_false, reduceCtorEq, Except.ok.injEq, false_iff, not_and]
      rintro rfl
      exact hj

theorem not_reads_of_error {w : Word32} {r : Reject} (h : decodeFields (fieldsOf w) = .error r) (i : Instr) : ¬ reads w i := by
  simp [reads_iff, h]

theorem reads_aluWord {d a b m : Reg} {f : BitVec 6} {i : Instr} (hd : decodeAlu ⟨0, d, a, b, m, f⟩ = .ok i) (hw : i.wf = true) :
    reads (aluWord d a b m f) i := by
  rw [reads_iff, fieldsOf_aluWord]
  exact ⟨hd, hw⟩

/-- A word of the I or B format whose major takes imm16 whole. -/
theorem reads_immWord {maj : BitVec 6} {d a : Reg} {k : BitVec 16} (op : BitVec 16 → Instr)
    (hd : decodeFields (immFields maj d a k) = .ok (op (immOf (immFields maj d a k)))) (hw : (op k).wf = true) :
    reads (immWord maj d a k) (op k) := by
  rw [immOf_immFields] at hd
  rw [reads_iff, fieldsOf_immWord]
  exact ⟨hd, hw⟩

/-- A word of the J format. -/
theorem reads_offWord {maj : BitVec 6} {o : BitVec 26} (op : BitVec 26 → Instr)
    (hd : decodeFields (offFields maj o) = .ok (op (offOf (offFields maj o)))) (hw : (op o).wf = true) : reads (maj ++ o) (op o) := by
  rw [offOf_offFields] at hd
  rw [reads_iff, fieldsOf_offWord]
  exact ⟨hd, hw⟩

theorem need_eq_error {c : Bool} (i : Instr) (h : c = false) : need c i = .error .badField := by simp [need, h]

theorem immFields_d (maj : BitVec 6) (d a : Reg) (k : BitVec 16) : (immFields maj d a k).d = d := rfl
theorem immFields_a (maj : BitVec 6) (d a : Reg) (k : BitVec 16) : (immFields maj d a k).a = a := rfl
theorem immFields_f (maj : BitVec 6) (d a : Reg) (k : BitVec 16) : (immFields maj d a k).f = k.extractLsb' 0 6 := rfl

/-- A word is read only where its must-be-zero field is zero, as the one instruction that it then holds. -/
theorem decoded_iff {c : Prop} [Decidable c] {r : Reject} {i j : Instr} (hj : j.wf = true) :
    (if c then Except.ok j else .error r) = .ok i ∧ i.wf = true ↔ c ∧ i = j := by
  split
  · simp only [*, Except.ok.injEq, true_and]
    exact ⟨fun h => h.1.symm, fun h => ⟨h.symm, h ▸ hj⟩⟩
  · simp [*]

/-- The instructions of SHIFTI by op (04 R89). -/
def shiftiOf (p : BitVec 2) (d a : Reg) (n : BitVec 6) : Instr :=
  match p.toNat with
  | 0 => .shli d a n
  | 1 => .shri d a n
  | 2 => .srai d a n
  | _ => .roti d a n

theorem shiftiOf_wf (p : BitVec 2) (d a : Reg) (n : BitVec 6) : (shiftiOf p d a n).wf = true := by
  unfold shiftiOf
  split <;> rfl

theorem decodeFields_shifti {x : Fields} (hx : x.maj = 0x08) :
    decodeFields x =
      if (immOf x).extractLsb' 6 8 = 0 then .ok (shiftiOf ((immOf x).extractLsb' 14 2) x.d x.a x.f) else .error .badField := by
  simp only [decodeFields, hx, BitVec.reduceToNat, beq_iff_eq, shiftiOf]
  split
  · generalize ((immOf x).extractLsb' 14 2).toNat = n
    rcases n with _ | _ | _ | n <;> rfl
  · rfl

theorem reads_shifti_iff {d a : Reg} {p : BitVec 2} {z : BitVec 8} {n : BitVec 6} {i : Instr} :
    reads (immWord 0x08 d a (p ++ z ++ n)) i ↔ z = 0 ∧ i = shiftiOf p d a n := by
  have hp : (p ++ z ++ n).extractLsb' 14 2 = p := by simp [-Nat.reduceAdd, BitVec.extractLsb'_append_eq_of_le]
  have hz : (p ++ z ++ n).extractLsb' 6 8 = z := by
    simp [-Nat.reduceAdd, BitVec.extractLsb'_append_eq_of_le, BitVec.extractLsb'_append_eq_right]
  have hn : (p ++ z ++ n).extractLsb' 0 6 = n := BitVec.extractLsb'_append_eq_right
  rw [reads_iff, fieldsOf_immWord, decodeFields_shifti rfl, immOf_immFields, immFields_d, immFields_a, immFields_f, hp, hz, hn]
  exact decoded_iff (shiftiOf_wf p d a n)

/-- The instructions of BITF by op (04 R89). -/
def bitfOf (op : Bool) (d a : Reg) (w l : BitVec 6) : Instr := if op then .bfi d a w l else .bfx d a w l

theorem bitfOf_wf (op : Bool) (d a : Reg) (w l : BitVec 6) : (bitfOf op d a w l).wf = true := by
  cases op <;> rfl

theorem decodeFields_bitf {x : Fields} (hx : x.maj = 0x09) :
    decodeFields x =
      if (immOf x).extractLsb' 12 3 = 0 then .ok (bitfOf ((immOf x).getLsbD 15) x.d x.a ((immOf x).extractLsb' 6 6) x.f)
      else .error .badField := by
  simp only [decodeFields, hx, BitVec.reduceToNat, beq_iff_eq]
  cases (immOf x).getLsbD 15 <;> rfl

theorem reads_bitf_iff {d a : Reg} {p : BitVec 1} {z : BitVec 3} {w l : BitVec 6} {i : Instr} :
    reads (immWord 0x09 d a (p ++ z ++ w ++ l)) i ↔ z = 0 ∧ i = bitfOf (p.getLsbD 0) d a w l := by
  have hp : (p ++ z ++ w ++ l).getLsbD 15 = p.getLsbD 0 := by
    rw [BitVec.getLsbD_append, BitVec.getLsbD_append, BitVec.getLsbD_append]
    rfl
  have hz : (p ++ z ++ w ++ l).extractLsb' 12 3 = z := by
    simp [-Nat.reduceAdd, BitVec.extractLsb'_append_eq_of_le, BitVec.extractLsb'_append_eq_right]
  have hw : (p ++ z ++ w ++ l).extractLsb' 6 6 = w := by
    simp [-Nat.reduceAdd, BitVec.extractLsb'_append_eq_of_le, BitVec.extractLsb'_append_eq_right]
  have hl : (p ++ z ++ w ++ l).extractLsb' 0 6 = l := BitVec.extractLsb'_append_eq_right
  rw [reads_iff, fieldsOf_immWord, decodeFields_bitf rfl, immOf_immFields, immFields_d, immFields_a, immFields_f, hp, hz, hw, hl]
  exact decoded_iff (bitfOf_wf (p.getLsbD 0) d a w l)

end Sys2Proof.Machine

/-! Chapter 05, values: the model's results in the spec's terms. -/
namespace Sys2Proof.Machine

theorem amount_eq (b : Word) : amount b = b.toNat % 64 := by simp [amount, field, bits]

theorem shiftLeft_eq_ofNat (a : Word) (n : Nat) : a <<< n = BitVec.ofNat 64 (a.toNat * 2 ^ n) :=
  BitVec.eq_of_toNat_eq (by simp [Nat.shiftLeft_eq])

theorem shiftRight_eq_ofNat (a : Word) (n : Nat) : a >>> n = BitVec.ofNat 64 (a.toNat / 2 ^ n) := by
  have h : a.toNat / 2 ^ n < 2 ^ 64 := Nat.lt_of_le_of_lt (Nat.div_le_self _ _) a.isLt
  exact BitVec.eq_of_toNat_eq (by rw [BitVec.toNat_ushiftRight, Nat.shiftRight_eq_div_pow, BitVec.toNat_ofNat, Nat.mod_eq_of_lt h])

theorem sshiftRight_eq_ofInt (a : Word) (n : Nat) : a.sshiftRight n = BitVec.ofInt 64 (a.toInt / 2 ^ n) := by
  rw [BitVec.sshiftRight_eq, Int.shiftRight_eq_div_pow, Int.natCast_pow]
  rfl

theorem bool64_slt (a b : Word) : bool64 (a.slt b) = if a.toInt < b.toInt then 1 else 0 := by
  simp only [bool64, BitVec.slt_iff_toInt_lt]

theorem sext16_toInt (k : BitVec 16) : (sext16 k).toInt = k.toInt := BitVec.toInt_signExtend_of_le (by decide)

theorem sext16_shiftLeft (k : BitVec 16) : sext16 k <<< 16 = k.signExtend 64 * 65536 := BitVec.shiftLeft_eq_mul_twoPow _ 16

theorem jumpOff_eq (o : BitVec 26) : jumpOff o = o.signExtend 64 * 4 := BitVec.shiftLeft_eq_mul_twoPow _ 2

theorem getLsbD_bitMask (hi lo i : Nat) : (bitMask hi lo).getLsbD i = decide (i < 64 ∧ lo ≤ i ∧ i < lo + (hi + 1 - lo)) := by
  simp only [bitMask, BitVec.getLsbD_shiftLeft, BitVec.getLsbD_ofNat, Nat.testBit_two_pow_sub_one]
  rw [Bool.eq_iff_iff]
  simp only [Bool.and_eq_true, Bool.not_eq_true', decide_eq_true_eq, decide_eq_false_iff_not]
  omega

theorem testBit_bits (x hi lo i : Nat) : (bits x hi lo).testBit i = (decide (i < hi + 1 - lo) && x.testBit (lo + i)) := by
  rw [bits, Nat.testBit_mod_two_pow, Nat.testBit_shiftRight]

/-- BFX reads the masked bits, moved down (05 R109). -/
theorem word_field (a : Word) (hi lo : Nat) : word (field a hi lo) = (a &&& bitMask hi lo) >>> lo := by
  apply BitVec.eq_of_getLsbD_eq
  intro i hi'
  rw [word, field, BitVec.getLsbD_ofNat, testBit_bits, BitVec.testBit_toNat, BitVec.getLsbD_ushiftRight, BitVec.getLsbD_and,
    getLsbD_bitMask]
  by_cases h : lo + i < 64
  · simp [h, hi', Bool.and_comm]
  · simp [h, BitVec.getLsbD_of_ge a (lo + i) (by omega)]

/-- What replacing a field leaves above it, puts in it and leaves below it. -/
theorem setBits_eq (x hi lo v : Nat) :
    setBits x hi lo v = 2 ^ lo * (2 ^ (hi + 1 - lo) * (x / 2 ^ lo / 2 ^ (hi + 1 - lo)) + v % 2 ^ (hi + 1 - lo)) + x % 2 ^ lo := by
  calc setBits x hi lo v
      = 2 ^ lo * (2 ^ (hi + 1 - lo) * (x / 2 ^ lo / 2 ^ (hi + 1 - lo)) + x / 2 ^ lo % 2 ^ (hi + 1 - lo)) + x % 2 ^ lo
          - x / 2 ^ lo % 2 ^ (hi + 1 - lo) * 2 ^ lo + v % 2 ^ (hi + 1 - lo) * 2 ^ lo := by
        rw [Nat.div_add_mod, Nat.div_add_mod, setBits, bits, Nat.shiftRight_eq_div_pow]
    _ = _ := by
        rw [Nat.mul_add, Nat.mul_add, Nat.mul_comm _ (v % _), Nat.mul_comm _ (x / 2 ^ lo % _)]
        omega

theorem testBit_setBits (x hi lo v i : Nat) :
    (setBits x hi lo v).testBit i = if lo ≤ i ∧ i < lo + (hi + 1 - lo) then v.testBit (i - lo) else x.testBit i := by
  rw [setBits_eq, Nat.testBit_two_pow_mul_add _ (Nat.mod_lt _ (Nat.two_pow_pos _)),
    Nat.testBit_two_pow_mul_add _ (Nat.mod_lt _ (Nat.two_pow_pos _)), Nat.testBit_mod_two_pow, Nat.testBit_mod_two_pow,
    Nat.testBit_div_two_pow, Nat.testBit_div_two_pow]
  by_cases h1 : i < lo
  · simp [h1, Nat.not_le.mpr h1]
  · have h2 : i - lo < hi + 1 - lo ↔ i < lo + (hi + 1 - lo) := by omega
    by_cases h3 : i < lo + (hi + 1 - lo)
    · simp [h1, h2, h3, Nat.not_lt.mp h1]
    · have h4 : i - lo - (hi + 1 - lo) + (hi + 1 - lo) + lo = i := by omega
      simp [h1, h2, h3, h4]

/-- BFI replaces the masked bits by the low bits of the inserted value, moved up (05 R109). -/
theorem setField_eq (x a : Word) (hi lo : Nat) :
    setField x hi lo a.toNat = (x &&& ~~~bitMask hi lo) ||| ((a <<< lo) &&& bitMask hi lo) := by
  apply BitVec.eq_of_getLsbD_eq
  intro i hi'
  rw [setField, BitVec.getLsbD_ofNat, testBit_setBits, BitVec.testBit_toNat, BitVec.testBit_toNat, BitVec.getLsbD_or,
    BitVec.getLsbD_and, BitVec.getLsbD_and, BitVec.getLsbD_not, BitVec.getLsbD_shiftLeft, getLsbD_bitMask]
  by_cases h : lo ≤ i ∧ i < lo + (hi + 1 - lo)
  · simp [h, hi', Nat.not_lt.mpr h.1]
  · simp [h, hi']

/-- Mix multiplies without loss and folds the halves of the product (05 R112). -/
theorem mixWord_eq (x k c m : Word) : mixWord x k c m = mix x k c m := by
  have hp : ∀ y : Word, (y.setWidth 128 * m.setWidth 128).toNat = y.toNat * m.toNat := by
    intro y
    have h : y.toNat * m.toNat < 2 ^ 128 := by
      calc y.toNat * m.toNat < 2 ^ 64 * 2 ^ 64 := Nat.mul_lt_mul'' y.isLt m.isLt
        _ = 2 ^ 128 := by decide
    rw [BitVec.toNat_mul, BitVec.toNat_setWidth_of_le (by decide), BitVec.toNat_setWidth_of_le (by decide), Nat.mod_eq_of_lt h]
  have hlo : ∀ p : BitVec 128, p.extractLsb' 0 64 = word p.toNat := fun p => rfl
  have hhi : ∀ p : BitVec 128, p.extractLsb' 64 64 = word (p.toNat / 2 ^ 64) := by
    intro p
    rw [← Nat.shiftRight_eq_div_pow]
    rfl
  simp only [mixWord, mix, hlo, hhi, hp]

/-- Both instructions run Mix over their constants, the key turned left after each round (05 R113, R114). -/
theorem mixLoop_eq (n : Nat) (cs : List (Word × Word)) (x k : Word) : mixLoop n cs x k = mixRounds n cs x k := by
  induction cs generalizing x k with
  | nil => rfl
  | cons cm cs ih =>
    rw [mixRounds, ← mixWord_eq, ← ih]
    rfl

end Sys2Proof.Machine

/-! Chapter 05, effects: an instruction that writes one value, and the statements of shifts, immediates, bit fields, mixing and jumps. -/
namespace Sys2Proof.Machine

/-- An instruction whose body writes one value gives its destination that value (05 R103). -/
theorem exec_gives {s : State} {c : Nat} {w : Word32} {x : Ctx} {i : Instr} {d : Reg} {srcs : List Reg} {v : Word} {g : Ctx → State → Word}
    (ha : s.acts c w x) (hl : s.lets c x i [] false srcs) (he : exec i s = runSwarm i [] false srcs (result d g) s) (hv : g x s = v) :
    exec i s = .next (s.gives c x d v) := by
  rw [he, runSwarm_of ha hl, finish_result, hv]

/-- An instruction whose body ends in a jump moves its context to the target. -/
theorem exec_jumps {s t : State} {c : Nat} {w : Word32} {x : Ctx} {i : Instr} {srcs : List Reg} {body : Nat → Ctx → State → Exec} {pc : Word}
    (ha : s.acts c w x) (hl : s.lets c x i [] false srcs) (he : exec i s = runSwarm i [] false srcs body s)
    (hb : body c x s = .jump t pc) : exec i s = .next (t.goes c pc) := by
  rw [he, runSwarm_of ha hl, hb, finish_jump]

section Forms
variable {i : Instr} {f : WordForm} {s : State} {c : Nat} {w : Word32} {x : Ctx}

theorem exec_shiftForm (hf : shiftForm (s.reg x) i = some f) (ha : s.acts c w x) (hl : s.lets c x i [] false f.srcs) :
    exec i s = .next (s.gives c x f.d f.v) := by
  unfold shiftForm at hf
  split at hf <;> cases hf
  case h_1 d a b => exact exec_gives ha hl rfl (by rw [shiftLeft_eq_ofNat, amount_eq])
  case h_2 d a b => exact exec_gives ha hl rfl (by rw [shiftRight_eq_ofNat, amount_eq])
  case h_3 d a b => exact exec_gives ha hl rfl (by rw [sshiftRight_eq_ofInt, amount_eq])
  case h_4 d a b => exact exec_gives ha hl rfl (by rw [rotR, amount_eq])
  case h_5 d a n => exact exec_gives ha hl rfl (shiftLeft_eq_ofNat _ _)
  case h_6 d a n => exact exec_gives ha hl rfl (shiftRight_eq_ofNat _ _)
  case h_7 d a n => exact exec_gives ha hl rfl (sshiftRight_eq_ofInt _ _)
  case h_8 d a n => exact exec_gives ha hl rfl rfl

theorem exec_immForm (hf : immForm (s.reg x) x.pc i = some f) (ha : s.acts c w x) (hl : s.lets c x i [] false f.srcs) :
    exec i s = .next (s.gives c x f.d f.v) := by
  unfold immForm at hf
  split at hf <;> cases hf
  case h_1 d a k => exact exec_gives ha hl rfl rfl
  case h_2 d a k => exact exec_gives ha hl rfl rfl
  case h_3 d a k => exact exec_gives ha hl rfl rfl
  case h_4 d a k => exact exec_gives ha hl rfl rfl
  case h_5 d a k => exact exec_gives ha hl rfl (by rw [bool64_slt, sext16_toInt])
  case h_6 d k => exact exec_gives ha hl rfl (by rw [shiftLeft_eq_ofNat]; rfl)
  case h_7 d k => exact exec_gives ha hl rfl (by rw [sext16_shiftLeft])

theorem exec_bitfForm (hf : bitfForm (s.reg x) i = some f) (ha : s.acts c w x) (hl : s.lets c x i [] false f.srcs) :
    exec i s = .next (s.gives c x f.d f.v) := by
  unfold bitfForm at hf
  split at hf <;> cases hf
  case h_1 d a w l => exact exec_gives ha hl rfl (word_field _ _ _)
  case h_2 d a w l => exact exec_gives ha hl rfl (setField_eq _ _ _ _)

theorem exec_mixForm (hf : mixForm (s.reg x) i = some f) (ha : s.acts c w x) (hl : s.lets c x i [] false f.srcs) :
    exec i s = .next (s.gives c x f.d f.v) := by
  unfold mixForm at hf
  split at hf <;> cases hf
  case h_1 d a b k => exact exec_gives ha hl rfl (by rw [ite_not])
  case h_2 d a b => exact exec_gives ha hl rfl (by rw [mixLoop_eq]; rfl)
  case h_3 d a b => exact exec_gives ha hl rfl (by rw [mixLoop_eq]; rfl)

end Forms

/-- Settles O10: the three bodies end in a jump, whose target is PC plus the offset times 4, or the register read before the link. -/
theorem jumpsCallsAndReturns : Obligations.JumpsCallsAndReturns := by
  refine ⟨fun o => ⟨reads_offWord .jmp rfl rfl, reads_offWord .call rfl rfl⟩, fun d a b => ⟨reads_aluWord rfl rfl, fun hb => ?_⟩,
    fun s c w x ha => ⟨fun o hl => ?_, fun o hl => ?_, fun d a hl => ?_⟩⟩
  · have hz : (b == 0 && (0 : Reg) == 0) = false := by rw [beq_false_of_ne hb, Bool.false_and]
    exact not_reads_of_error (r := .badField) (by rw [fieldsOf_aluWord]; exact need_eq_error _ hz)
  · rw [← jumpOff_eq]
    exact exec_jumps ha hl (by rfl) (by rfl)
  · rw [← jumpOff_eq]
    exact exec_jumps ha hl (by rfl) (by rfl)
  · exact exec_jumps ha hl (by rfl) (by rfl)

/-- Settles O4: the layouts by the decoder's laws, the values by the model's shifts in the terms of R107. -/
theorem shiftsAndRotates : Obligations.ShiftsAndRotates := by
  refine ⟨fun d a b n => ?_, fun d a p z n hz i h => hz (reads_shifti_iff.mp h).1, fun i f s c w x => exec_shiftForm⟩
  exact ⟨reads_aluWord rfl rfl, reads_aluWord rfl rfl, reads_aluWord rfl rfl, reads_aluWord rfl rfl, reads_shifti_iff.mpr ⟨rfl, rfl⟩,
    reads_shifti_iff.mpr ⟨rfl, rfl⟩, reads_shifti_iff.mpr ⟨rfl, rfl⟩, reads_shifti_iff.mpr ⟨rfl, rfl⟩⟩

/-- Settles O5: each major takes imm16 whole, and LDHI and ADDPC need a zero a field. -/
theorem immediateForms : Obligations.ImmediateForms := by
  refine ⟨fun d a k => ⟨reads_immWord (.addi d a) rfl rfl, reads_immWord (.andi d a) rfl rfl, reads_immWord (.ori d a) rfl rfl,
    reads_immWord (.xori d a) rfl rfl, reads_immWord (.slti d a) rfl rfl, reads_immWord (.ldhi d) rfl rfl,
    reads_immWord (.addpc d) rfl rfl, fun h i => ?_⟩, fun i f s c w x => exec_immForm⟩
  have hb : (a == 0) = false := beq_false_of_ne h
  constructor <;> exact not_reads_of_error (r := .badField) (by rw [fieldsOf_immWord]; exact need_eq_error _ hb) i

/-- Settles O6: the field's top is at most bit 63 for every lo and width, and the masks of R109 hold its bits. -/
theorem bitFieldInstructions : Obligations.BitFieldInstructions :=
  ⟨fun _ _ _ _ => ⟨reads_bitf_iff.mpr ⟨rfl, rfl⟩, reads_bitf_iff.mpr ⟨rfl, rfl⟩⟩, fun _ _ _ _ _ _ => exec_bitfForm⟩

/-- Settles O7: the model's rounds are the loop of R113 and R114, round by round. -/
theorem hashAndCounterRandom : Obligations.HashAndCounterRandom :=
  ⟨fun _ _ _ => ⟨reads_aluWord rfl rfl, reads_aluWord rfl rfl⟩, fun _ _ _ _ _ _ => exec_mixForm⟩

end Sys2Proof.Machine

/-! Chapter 08, the system's instructions: the check of the level, the context whose turn it is, and the statement of ERET. -/
namespace Sys2Proof.Machine

/-- A change of a bound context whose content is known. -/
theorem State.modCtx_of_ctx? {s : State} {c : Nat} {x : Ctx} (h : s.ctx? c = some x) (f : Ctx → Ctx) :
    s.modCtx c f = s.setCtx c (f x) := by
  simp only [State.modCtx, h]

theorem State.goes_of_acts {s : State} {c : Nat} {w : Word32} {x : Ctx} (ha : s.acts c w x) (pc : Word) :
    s.goes c pc = s.setCtx c { x with pc := pc, st := .idle, got := [], mark := none } :=
  State.modCtx_of_ctx? ha.2 _

/-- A supervisor-only instruction at user level, which the two checks before that of the level let pass (04 R93 step 4). -/
theorem issueFault_user {s : State} {c : Nat} {x : Ctx} {i : Instr} {feats : List Nat} {srcs : List Reg} (hw : i.WellFormed)
    (hf : ∀ b ∈ feats, (s.feat (dieOfCluster (clusterOf c))).getLsbD b = true) (hu : x.level = .user) :
    issueFault s c x i feats true srcs = some (flt .priv x.pc) := by
  have hw' : i.wf = true := hw
  simp [issueFault, hw', List.all_eq_true.mpr hf, hu]

theorem exec_eret (s : State) : exec .eret s = runSwarm .eret [] true [] (fun _ x t => .jump t (eretTarget x)) s := rfl

/-- Settles O40: at user level the check of the level stops ERET; where its checks let it run, its body is a jump to TRAPPC. -/
theorem eretReturns : Obligations.EretReturns := by
  refine fun s c w x ha => ⟨fun hu => ?_, fun hl => ?_⟩
  · have hp : issueFault s c x .eret [] true [] = some (flt .priv x.pc) := issueFault_user rfl (List.forall_mem_nil _) hu
    rw [exec_eret, runSwarm_stops ha hp, State.faults]
  · rw [exec_eret, runSwarm_of ha hl, finish_jump, State.goes_of_acts ha, eretTarget]

end Sys2Proof.Machine
